-- ==== Sys2Proof/Word.lean ====
section
/-! DEFINITION. The words of W2M-CORE and the small closed sets of names its ports carry (00_scope.md R13, R14, R19, R20,
R23; 10_state.md R32). -/

namespace Sys2Proof

/-- A command word, or a word read from the status port: 32 bits (30_encoding.md R80, 10_state.md R39). -/
abbrev Word := BitVec 32

/-- One byte of the Output Stream (00_scope.md R23). -/
abbrev Byte := BitVec 8

/-- A sample as the 16 bits that carry it; as a number it is `toInt`, the two's-complement i16 of 00_scope.md R14. -/
abbrev Sample := BitVec 16

/-- A u16 cause: the SRCERR operand, or the cause of a failing agent (30_encoding.md R85, 00_scope.md R19, R20). -/
abbrev Cause := BitVec 16

/-- A frame: an ordered sequence of exactly N = 80 samples (00_scope.md R23, R10). -/
abbrev Frame := Vector Sample 80

/-- The four output formats (10_state.md R32). -/
inductive Format where
  | mulaw
  | alaw
  | pcm16le
  | frame
  deriving DecidableEq, Repr

/-- What the Byte Sink answers to one write, and the encoder to one open (00_scope.md R19, R20). -/
inductive Answer where
  | ok
  | fail (cause : Cause)
  deriving DecidableEq, Repr, Inhabited

end Sys2Proof
end

