-- ==== Sys2Proof/Config.lean ====
section
/-! DEFINITION. The parameters of 00_scope.md R10, and the free values: answers and contents the spec leaves open
(60_exceptions.md R230, 93_implementation_defined.md U2, U3). A free value is an opaque constant: nothing can evaluate it
and no proof can know it. -/

namespace Sys2Proof.Config

/-- N, the frame length in samples (R10). The type `Frame` holds exactly this many. -/
def N : Nat := 80

/-- SAMPLE_BITS (R10): the width of `Sample`. -/
def sampleBits : Nat := 16

/-- SAMPLE_RATE in Hz (R10): informational, read by no rule. -/
def sampleRate : Nat := 8000

/-- MAX_FRAME_BYTES (R10). -/
def maxFrameBytes : Nat := 10

/-- MIN_FRAME_BYTES (R10). -/
def minFrameBytes : Nat := 1

/-- PAD_VALUE (R10, R137): the i16 sample 0. -/
def padValue : Sample := 0

/-- MAXMAG, the magnitude clamp (R10, R101). -/
def maxMag : Nat := 32767

/-- ULAW_BIAS (R10, R104). -/
def ulawBias : Nat := 132

/-- ULAW_CLIP (R10, R104). -/
def ulawClip : Nat := 32635

/-- ALAW_XOR (R10, R107). -/
def alawXor : Byte := 0xD5

/-- CMD_BITS (R10): the width of `Word`. -/
def cmdBits : Nat := 32

/-- ERRINFO_BITS (R10): the width of `Cause`. -/
def errinfoBits : Nat := 16

/-- HAS_CANCEL is OPEN with default false, the base design (R10). The parameter itself is an argument of `decode` and of
`State.resetWith`, and the field `hasCancel` of State; this is only its default. Log entry 3. -/
def hasCancelDefault : Bool := false

/-- The Byte Sink's answer to draw number `n`, a write of the unit `u`, where State lists no answer for it (R230.1).
A free value, log entry 4. -/
opaque freeSink (n : Nat) (u : List Byte) : Answer

/-- The encoder's answer to draw number `n`, an open, where State lists no answer for it (R230.2). A free value,
log entry 4. -/
opaque freeOpen (n : Nat) : Answer

/-- The unit the encoder returns for `f` at draw number `n`, where State lists none: any bytes, any length (R154, R230.3).
A free value, log entry 4. -/
opaque freeUnit (n : Nat) (f : Frame) : List Byte

/-- What FBUF[i] holds after the reset input of draw number `n` (R240: "unspecified"; U2). A free value, log entry 6. -/
opaque freeFbuf (n : Nat) (i : Nat) : Sample

end Sys2Proof.Config
end

