-- ==== Sys2Proof/Syntax.lean ====
section
/-! DEFINITION. The commands of W2M-CORE: one constructor per row of spec/opcode_table.json (30_encoding.md R82,
00_scope.md R26). -/

namespace Sys2Proof

/-- A decoded command. -/
inductive Instr where
  /-- CFG: select the output format (R172). -/
  | cfg (f : Format)
  /-- START: begin the run (R174). -/
  | start
  /-- SAMPLE: one sample from the source, its 16 operand bits as they stand in the word (R176, R84). -/
  | sample (x : Sample)
  /-- EOS: end of stream (R180). -/
  | eos
  /-- SRCERR: source read failure with its cause (R184, R85). -/
  | srcerr (cause : Cause)
  /-- CANCEL: cooperative cancellation, present only when HAS_CANCEL (R186). -/
  | cancel
  deriving DecidableEq, Repr

end Sys2Proof
end

