-- ==== Sys2Proof/WellFormed.lean ====
section
/-! DEFINITION. Which commands exist on a block built with a given HAS_CANCEL. The operand ranges of 30_encoding.md R83 to R86
are the operand types' own; what is left to check is that CANCEL exists only when HAS_CANCEL (R82, R88.5). -/

namespace Sys2Proof

/-- The command has an encoding on a block with this value of HAS_CANCEL (30_encoding.md R82, R88). -/
def wellFormed (hasCancel : Bool) : Instr → Bool
  | .cfg _ => true
  | .start => true
  | .sample _ => true
  | .eos => true
  | .srcerr _ => true
  | .cancel => hasCancel

end Sys2Proof
end

