-- ==== Sys2Proof/Decode.lean ====
section
/-! DEFINITION. Decoding and encoding of command words (30_encoding.md R80 to R89). Decoding is total on 32-bit words and
names the reason a word is invalid; the encoder stands after it, written from the same tables. -/

namespace Sys2Proof

/-- OP, bits [31:28] (R80). -/
def opField (w : Word) : BitVec 4 := w.extractLsb' 28 4

/-- RSV, bits [27:16] (R80). -/
def rsvField (w : Word) : BitVec 12 := w.extractLsb' 16 12

/-- OPND, bits [15:0] (R80). -/
def opndField (w : Word) : BitVec 16 := w.extractLsb' 0 16

/-- The format a 2-bit code selects (R83, 10_state.md R32): all four codes are legal. -/
def Format.ofCode (c : BitVec 2) : Format :=
  if c = 0 then .mulaw else if c = 1 then .alaw else if c = 2 then .pcm16le else .frame

/-- FMT.CODE of a format (R83, 10_state.md R32). -/
def Format.code : Format → BitVec 2
  | .mulaw => 0
  | .alaw => 1
  | .pcm16le => 2
  | .frame => 3

/-- Why a word is Invalid, by the items of R88. The order in which several reasons of one word are named is the
pseudocode's of R87. -/
inductive Invalid where
  /-- R88.1: OP is 0x0 or 0x7 to 0xF. -/
  | reservedOpcode
  /-- R88.2: RSV is not 0. -/
  | reservedField
  /-- R88.3: OP is CFG and OPND[15:2] is not 0. -/
  | cfgOperand
  /-- R88.4: OP is START, EOS or CANCEL and OPND is not 0. -/
  | operandNotZero
  /-- R88.5: OP is 0x6 and HAS_CANCEL is false. -/
  | noCancel
  deriving DecidableEq, Repr

/-- `decode` of R87: a total function from 32-bit words to a command or Invalid. -/
def decode (hasCancel : Bool) (w : Word) : Except Invalid Instr :=
  let op := opField w
  let opnd := opndField w
  if rsvField w ≠ 0 then .error .reservedField
  else if op = 0x1 then
    if opnd.extractLsb' 2 14 = 0 then .ok (.cfg (Format.ofCode (opnd.extractLsb' 0 2))) else .error .cfgOperand
  else if op = 0x2 then
    if opnd = 0 then .ok .start else .error .operandNotZero
  else if op = 0x3 then .ok (.sample opnd)
  else if op = 0x4 then
    if opnd = 0 then .ok .eos else .error .operandNotZero
  else if op = 0x5 then .ok (.srcerr opnd)
  else if op = 0x6 then
    if hasCancel then
      if opnd = 0 then .ok .cancel else .error .operandNotZero
    else .error .noCancel
  else .error .reservedOpcode

/-- One word from OP and OPND, with RSV zero (R80). -/
def packWord (op : BitVec 4) (opnd : BitVec 16) : Word := op.zeroExtend 32 <<< 28 ||| opnd.zeroExtend 32

/-- The word of a command (R82 to R86, R90). -/
def encode : Instr → Word
  | .cfg f => packWord 0x1 (f.code.zeroExtend 16)
  | .start => packWord 0x2 0
  | .sample x => packWord 0x3 x
  | .eos => packWord 0x4 0
  | .srcerr c => packWord 0x5 c
  | .cancel => packWord 0x6 0

/-- One row of the match and mask table (R89, spec/opcode_table.json). -/
structure OpcodeRow where
  mnemonic : String
  matchBits : Word
  maskBits : Word
  needsCancel : Bool
  deriving DecidableEq, Repr

/-- A word is the command of a row when `(w & mask) == match` (R89); CANCEL's row is there only when HAS_CANCEL. -/
def OpcodeRow.takes (hasCancel : Bool) (r : OpcodeRow) (w : Word) : Bool :=
  (w &&& r.maskBits == r.matchBits) && (!r.needsCancel || hasCancel)

def cfgRow : OpcodeRow := ⟨"CFG", 0x10000000, 0xFFFFFFFC, false⟩
def startRow : OpcodeRow := ⟨"START", 0x20000000, 0xFFFFFFFF, false⟩
def sampleRow : OpcodeRow := ⟨"SAMPLE", 0x30000000, 0xFFFF0000, false⟩
def eosRow : OpcodeRow := ⟨"EOS", 0x40000000, 0xFFFFFFFF, false⟩
def srcerrRow : OpcodeRow := ⟨"SRCERR", 0x50000000, 0xFFFF0000, false⟩
def cancelRow : OpcodeRow := ⟨"CANCEL", 0x60000000, 0xFFFFFFFF, true⟩

/-- The table of R89. -/
def opcodeTable : List OpcodeRow := [cfgRow, startRow, sampleRow, eosRow, srcerrRow, cancelRow]

/-- The row of a command. -/
def Instr.row : Instr → OpcodeRow
  | .cfg _ => cfgRow
  | .start => startRow
  | .sample _ => sampleRow
  | .eos => eosRow
  | .srcerr _ => srcerrRow
  | .cancel => cancelRow

/-- The instruction this decoder reads from the `nbits` table bits `w`, on a block that has every row of the table:
HAS_CANCEL true (log entry 3). Bits above `nbits` are 0. A command word is never split into bytes (20_memory.md R69). -/
def decodeTableWord (nbits w : Nat) : Option Instr :=
  (decode true (BitVec.ofNat 32 (w % 2 ^ nbits))).toOption

end Sys2Proof
end

