-- ==== Sys2Proof/Machine/State.lean ====
section
/-! DEFINITION. The state of W2M-CORE: the registers of 10_state.md R30, the observation records of R44 to R46, the inputs of
the host and of the two agents (00_scope.md R24, 60_exceptions.md R230), and the outcomes of a step that are no next state.
There is no addressable memory (20_memory.md R60, R61), so State holds none. -/

namespace Sys2Proof.Machine

/-- STATE (10_state.md R35). The codes 5, 6 and 7 are never produced. -/
inductive RunState where
  | idle
  | streaming
  | draining
  | done
  | error
  deriving DecidableEq, Repr

/-- ERR (R36). The codes 6 and 7 are never produced. -/
inductive ErrKind where
  | none
  | sourceRead
  | sinkWrite
  | encoderInit
  | encoderInvariant
  | cancelled
  deriving DecidableEq, Repr

/-- SESS (R38): never opened in this run, open, closed. Code 3 is never produced. -/
inductive Session where
  | none
  | opened
  | closed
  deriving DecidableEq, Repr

/-- One call the block made to the External Frame Encoder (R45). -/
inductive EncCall where
  | open_
  | encode (f : Frame)
  | close
  deriving DecidableEq, Repr

/-- The observation of one run (R44 to R46): records of the model, for which the hardware has no storage. No rule of the
block reads them (R47). -/
structure RunRecord where
  /-- OUT: the bytes the sink has accepted, in order (R44). -/
  out : List Byte
  /-- ENCLOG: the encoder calls, in order (R45). -/
  encLog : List EncCall
  /-- NSAMP: SAMPLE commands executed with effect in Streaming (R46). -/
  nsamp : Nat
  /-- NFRAMES: Encode entries in ENCLOG (R46). -/
  nframes : Nat
  /-- NWRITES: SinkWrite calls made, answered ok or fail (R46). -/
  nwrites : Nat
  deriving DecidableEq, Repr

/-- A new record (70_reset_and_hazards.md R240). -/
def RunRecord.empty : RunRecord := ⟨[], [], 0, 0, 0⟩

/-- What the host does to the block between two steps: it presents a command word, or asserts the reset input
(20_memory.md R60, 70_reset_and_hazards.md R240). -/
inductive HostEvent where
  | word (w : Word)
  | reset
  deriving DecidableEq, Repr

/-- The machine: registers, the observation, and what the host and the agents will do next. -/
structure State where
  /-- HAS_CANCEL (00_scope.md R10): a parameter of the block, written by no step. Log entry 3. -/
  hasCancel : Bool
  /-- FMT.CFGD (R32). -/
  fmtCfgd : Bool
  /-- FMT.CODE (R32). -/
  fmtCode : Format
  /-- STATE (R35). -/
  runState : RunState
  /-- FBUF (R33): 80 entries of 16 bits. -/
  fbuf : Frame
  /-- FCNT (R34): 7 bits; 0..79 at every command boundary, 80 only inside a step. -/
  fcnt : BitVec 7
  /-- ERR (R36). -/
  err : ErrKind
  /-- ERRINFO (R37): 16 bits. -/
  errinfo : Cause
  /-- SESS (R38). -/
  sess : Session
  /-- OUT, ENCLOG, NSAMP, NFRAMES and NWRITES of the current run (R44 to R46). -/
  obs : RunRecord
  /-- The records of the runs a reset input has ended, oldest first (R240). The model's own, log entry 7. -/
  past : List RunRecord
  /-- What the host will do, next first. The model's own, log entry 1. -/
  hostIn : List HostEvent
  /-- The Byte Sink's next answers, next first. The model's own, log entry 4. -/
  sinkIn : List Answer
  /-- The encoder's next answers to EncOpen, next first. The model's own, log entry 4. -/
  openIn : List Answer
  /-- The units the encoder returns to the next EncEncode calls, next first. The model's own, log entry 4. -/
  encIn : List (List Byte)
  /-- How many free values have been drawn. The model's own, log entry 4. -/
  drawn : Nat
  deriving DecidableEq, Repr

/-- Why the machine stops with a fault. -/
inductive Fault where
  /-- IllegalCommand(w) (60_exceptions.md R220): raised by the step when STATE is not Error and w decodes to Invalid, and by
  a command's meaning when R173 does not allow the command in the current state. The spec gives such a word no effect
  (92_eei_decisions.md D12; 93_implementation_defined.md U1, treatment `fault`). Safe: the model stops where a built block
  does something unspecified. -/
  | illegalCommand (w : Word)
  deriving DecidableEq, Repr

/-- Why the machine refuses an instruction. -/
inductive Refusal where
  /-- An instruction of the table without a meaning. Every arm of exec has a meaning, so nothing raises it. Safe. -/
  | notModelled (mnemonic : String)
  deriving DecidableEq, Repr

/-- The block right after reset (10_state.md R48), built with the given HAS_CANCEL. FBUF, for which R48 states no value, is
zero (DESIGN CHOICE, log entry 5); nothing is listed for the host or the agents, and no free value has been drawn
(DESIGN CHOICE, log entries 1 and 4). -/
def State.resetWith (hasCancel : Bool) : State where
  hasCancel := hasCancel
  fmtCfgd := false
  fmtCode := .mulaw
  runState := .idle
  fbuf := Vector.replicate 80 0
  fcnt := 0
  err := .none
  errinfo := 0
  sess := .none
  obs := RunRecord.empty
  past := []
  hostIn := []
  sinkIn := []
  openIn := []
  encIn := []
  drawn := 0

/-- The machine right after reset, with HAS_CANCEL at its default (00_scope.md R10, 10_state.md R48). -/
def State.reset : State := State.resetWith Config.hasCancelDefault

end Sys2Proof.Machine
end

