-- ==== Sys2Proof/Machine/Ops.lean ====
section
/-! DEFINITION. The named operations over State that the commands share: the observation records, the agents' answers, the sink
write, the session release, the error entry (60_exceptions.md R215) and the reset input that alone leaves Error
(70_reset_and_hazards.md R240), and the legality check of 43_pipeline.md R173. -/

namespace Sys2Proof.Machine

/-! ### The observation records (10_state.md R44 to R46) -/

/-- `OUT <- OUT ++ u` (20_memory.md R63). -/
def appendOut (u : List Byte) (s : State) : State := { s with obs := { s.obs with out := s.obs.out ++ u } }

/-- `ENCLOG <- ENCLOG ++ [c]` (R45). -/
def logCall (c : EncCall) (s : State) : State := { s with obs := { s.obs with encLog := s.obs.encLog ++ [c] } }

/-- `NSAMP <- NSAMP + 1` (R46). -/
def countSample (s : State) : State := { s with obs := { s.obs with nsamp := s.obs.nsamp + 1 } }

/-- `NFRAMES <- NFRAMES + 1` (R46). -/
def countFrame (s : State) : State := { s with obs := { s.obs with nframes := s.obs.nframes + 1 } }

/-- `NWRITES <- NWRITES + 1` (R46). -/
def countWrite (s : State) : State := { s with obs := { s.obs with nwrites := s.obs.nwrites + 1 } }

/-! ### Register updates (00_scope.md R17) -/

/-- `STATE <- r`. -/
def setRun (r : RunState) (s : State) : State := { s with runState := r }

/-- `SESS <- k`. -/
def setSess (k : Session) (s : State) : State := { s with sess := k }

/-- `FCNT <- 0`. -/
def clearCount (s : State) : State := { s with fcnt := 0 }

/-- The register writes of error entry, in the order of R215: ERR, ERRINFO, STATE. -/
def recordError (kind : ErrKind) (info : Cause) (s : State) : State :=
  { s with err := kind, errinfo := info, runState := .error }

/-! ### The agents' answers (60_exceptions.md R230, R231): listed in State, or free values where State lists none -/

/-- What the sink answers to a write of `u` in this state. -/
def sinkAnswer (s : State) (u : List Byte) : Answer :=
  match s.sinkIn with
  | a :: _ => a
  | [] => Config.freeSink s.drawn u

/-- The state once the sink has answered. -/
def afterSink (s : State) : State :=
  match s.sinkIn with
  | _ :: rest => { s with sinkIn := rest }
  | [] => { s with drawn := s.drawn + 1 }

/-- What the encoder answers to an open in this state. -/
def openAnswer (s : State) : Answer :=
  match s.openIn with
  | a :: _ => a
  | [] => Config.freeOpen s.drawn

/-- The state once the encoder has answered an open. -/
def afterOpen (s : State) : State :=
  match s.openIn with
  | _ :: rest => { s with openIn := rest }
  | [] => { s with drawn := s.drawn + 1 }

/-- The unit the encoder returns for `f` in this state. -/
def unitAnswer (s : State) (f : Frame) : List Byte :=
  match s.encIn with
  | u :: _ => u
  | [] => Config.freeUnit s.drawn f

/-- The state once the encoder has returned a unit. -/
def afterUnit (s : State) : State :=
  match s.encIn with
  | _ :: rest => { s with encIn := rest }
  | [] => { s with drawn := s.drawn + 1 }

/-! ### Session release and error entry -/

/-- `session_release` (42_encoder_adapter.md R160): one Close if the session is open, else nothing. -/
def sessionRelease (s : State) : State :=
  match s.sess with
  | .none => s
  | .opened => setSess .closed (logCall .close s)
  | .closed => s

/-- `enterError` (60_exceptions.md R215), the block's trap entry: ERR, ERRINFO, STATE, then the session release. -/
def enterError (kind : ErrKind) (info : Cause) (s : State) : State :=
  sessionRelease (recordError kind info s)

/-- The reset input (70_reset_and_hazards.md R240), the only way out of Error and Done (R224, R246): the session is released
first, the run's record ends with that Close and a new one starts, and FBUF holds free values (log entry 6). -/
def resetInput (s : State) : State :=
  let r := sessionRelease s
  { r with
    fmtCfgd := false
    fmtCode := .mulaw
    runState := .idle
    fcnt := 0
    err := .none
    errinfo := 0
    sess := .none
    fbuf := Vector.ofFn fun i : Fin 80 => Config.freeFbuf r.drawn i.val
    drawn := r.drawn + 1
    past := r.past ++ [r.obs]
    obs := RunRecord.empty }

/-! ### The sink write -/

/-- `SinkWrite(u)` once the sink has answered `a` (00_scope.md R19, 20_memory.md R64): all of u is appended on ok, none of it on
fail, and a failure enters Error with the sink's cause (43_pipeline.md R176). -/
def finishWrite (a : Answer) (u : List Byte) (s : State) : State :=
  match a with
  | .ok => appendOut u s
  | .fail c => enterError .sinkWrite c s

/-- `emit_unit` (43_pipeline.md R176): one SinkWrite of the whole unit. -/
def emitUnit (u : List Byte) (s : State) : State :=
  finishWrite (sinkAnswer s u) u (afterSink (countWrite s))

/-! ### Legality (43_pipeline.md R173) -/

/-- The table of R173 outside Error. No command is legal in Draining, which no command boundary shows (R181, log entry 8);
CANCEL is no command at all unless HAS_CANCEL (30_encoding.md R88.5). -/
def legal (s : State) : Instr → Bool
  | .cfg _ => decide (s.runState = .idle)
  | .start => decide (s.runState = .idle) && s.fmtCfgd
  | .sample _ => decide (s.runState = .streaming)
  | .eos => decide (s.runState = .streaming)
  | .srcerr _ => decide (s.runState = .streaming)
  | .cancel => decide (s.runState = .streaming) && s.hasCancel

/-- The checks before a command's effect, in the order of 60_exceptions.md R222: in Error the command is consumed with no
effect (43_pipeline.md R190), where R173 does not allow it the step raises IllegalCommand with the command's word (R220),
and otherwise it executes. -/
def guarded (i : Instr) (s : State) (effect : State → State) : Host.Outcome State Fault Refusal :=
  if s.runState = .error then .next s
  else if legal s i then .next (effect s)
  else .fault (.illegalCommand (encode i))

end Sys2Proof.Machine
end

