-- ==== Sys2Proof/Machine/Abort.lean ====
section
/-! DEFINITION. The commands that end a run in Error by themselves: SRCERR and CANCEL (43_pipeline.md R184, R186). -/

namespace Sys2Proof.Machine

/-- SRCERR c (R184): SourceReadError with the operand as its cause; legal in Streaming only. -/
def execSrcerr (c : Cause) (s : State) : Host.Outcome State Fault Refusal :=
  guarded (.srcerr c) s (enterError .sourceRead c)

/-- CANCEL (R186): Cancelled with cause 0; legal in Streaming only, and only when HAS_CANCEL. -/
def execCancel (s : State) : Host.Outcome State Fault Refusal := guarded .cancel s (enterError .cancelled 0)

end Sys2Proof.Machine
end

