-- ==== Sys2Proof/Machine/Encoder.lean ====
section
/-! DEFINITION. The block's side of the external frame encoder contract: open, and the encode and write cycle of one frame
(42_encoder_adapter.md R151, R156, R157). The release stands in Ops.lean beside the error entry that calls it. -/

namespace Sys2Proof.Machine

/-- `enc_open` once the encoder has answered `a` (R151). -/
def finishOpen (a : Answer) (s : State) : State :=
  match a with
  | .ok => setSess .opened s
  | .fail c => enterError .encoderInit c s

/-- `enc_open` (R151): the call is logged, then the answer is taken. -/
def encOpen (s : State) : State :=
  finishOpen (openAnswer s) (afterOpen (logCall .open_ s))

/-- The length check of R156: MIN_FRAME_BYTES to MAX_FRAME_BYTES. -/
def unitLengthOk (u : List Byte) : Bool :=
  decide (Config.minFrameBytes ≤ u.length) && decide (u.length ≤ Config.maxFrameBytes)

/-- ERRINFO of an EncoderInvariantError, `min(L, 0xFFFF)` (R156, 60_exceptions.md R216). -/
def lengthCause (u : List Byte) : Cause := BitVec.ofNat 16 (min u.length 0xFFFF)

/-- `frame_cycle` once the encoder has returned `u` (R157): the length check comes before the write (60_exceptions.md R217). -/
def finishCycle (u : List Byte) (s : State) : State :=
  if unitLengthOk u then emitUnit u s else enterError .encoderInvariant (lengthCause u) s

/-- `frame_cycle` (R157). -/
def frameCycle (f : Frame) (s : State) : State :=
  finishCycle (unitAnswer s f) (afterUnit (countFrame (logCall (.encode f) s)))

end Sys2Proof.Machine
end

