-- ==== Sys2Proof/Machine/Setup.lean ====
section
/-! DEFINITION. The commands before the stream: CFG and START (43_pipeline.md R172, R174). -/

namespace Sys2Proof.Machine

/-- What CFG writes (R172). -/
def selectFormat (f : Format) (s : State) : State := { s with fmtCode := f, fmtCfgd := true }

/-- The end of START in FRAME (R174): a failed open leaves the run in Error. -/
def afterOpening (o : State) : State := if o.runState = .error then o else setRun .streaming o

/-- What START does (R174): in FRAME the session is opened first. -/
def beginRun (s : State) : State :=
  match s.fmtCode with
  | .mulaw => setRun .streaming s
  | .alaw => setRun .streaming s
  | .pcm16le => setRun .streaming s
  | .frame => afterOpening (encOpen s)

/-- CFG f (R172): legal in Idle only. -/
def execCfg (f : Format) (s : State) : Host.Outcome State Fault Refusal := guarded (.cfg f) s (selectFormat f)

/-- START (R174): legal in Idle once a format is selected. -/
def execStart (s : State) : Host.Outcome State Fault Refusal := guarded .start s beginRun

end Sys2Proof.Machine
end

