-- ==== Sys2Proof/Machine/Compander.lean ====
section
/-! DEFINITION. The two companders (40_compander.md): total functions of the sample alone (R100, R113), on mathematical
integers as the rules are (00_scope.md R14). -/

namespace Sys2Proof.Machine

/-- `neg` of R101: the sample is below zero. -/
def isNeg (x : Sample) : Bool := decide (x.toInt < 0)

/-- `mag` of R101: the exact absolute value, clamped to MAXMAG. -/
def magnitude (x : Sample) : Nat := min x.toInt.natAbs Config.maxMag

/-- The loop of `segsearch` (R102) with `room` increments of s left before the cap of 7. -/
def segsearchFrom : (room t s : Nat) → Nat
  | 0, _, s => s
  | room + 1, t, s => if t >>> 1 ≠ 0 then segsearchFrom room (t >>> 1) (s + 1) else s

/-- `segsearch` (R102). -/
def segsearch (t : Nat) : Nat := segsearchFrom 7 t 0

/-- `compose` (R103): sign in bit 7, segment in bits [6:4], mantissa in bits [3:0]. -/
def compose (neg : Bool) (seg mant : Nat) : Byte :=
  BitVec.ofNat 8 ((seg <<< 4) ||| mant ||| (if neg then 0x80 else 0x00))

/-- `v` of R104: the clipped and biased μ-law magnitude. -/
def ulawBiased (x : Sample) : Nat := min (magnitude x) Config.ulawClip + Config.ulawBias

/-- The μ-law segment of a sample (R104, R106). -/
def ulawSeg (x : Sample) : Nat := segsearch (ulawBiased x >>> 7)

/-- The μ-law mantissa of a sample (R104, R106). -/
def ulawMant (x : Sample) : Nat := (ulawBiased x >>> (ulawSeg x + 3)) &&& 0xF

/-- `encode_mulaw` (R104). -/
def encodeMulaw (x : Sample) : Byte := ~~~ (compose (isNeg x) (ulawSeg x) (ulawMant x))

/-- The A-law segment of a sample (R107, R109). -/
def alawSeg (x : Sample) : Nat := segsearch (magnitude x >>> 7)

/-- The A-law mantissa of a sample: shift 4 in segments 0 and 1 (R107, R109). -/
def alawMant (x : Sample) : Nat := (magnitude x >>> (max (alawSeg x) 1 + 3)) &&& 0xF

/-- `encode_alaw` (R107). -/
def encodeAlaw (x : Sample) : Byte := compose (isNeg x) (alawSeg x) (alawMant x) ^^^ Config.alawXor

end Sys2Proof.Machine
end

