-- ==== Sys2Proof/Machine/FrameBuffer.lean ====
section
/-! DEFINITION. The frame buffer and its end-of-stream padding (41_frame_buffer.md R131, R133, R136). -/

namespace Sys2Proof.Machine

/-- FCNT at the count N = 80, held only inside a step (10_state.md R34). -/
def fullCount : BitVec 7 := BitVec.ofNat 7 Config.N

/-- `fb_handoff` (R133): all 80 entries in index order; FCNT is cleared before the encoder is called. -/
def fbHandoff (s : State) : State := frameCycle s.fbuf (clearCount s)

/-- The store of a push (R131): `FBUF[FCNT] <- x; FCNT <- FCNT + 1`. In a state with FCNT above 79, which no command boundary
shows, there is no such entry and FBUF stays (log entry 9). -/
def fbStore (x : Sample) (s : State) : State :=
  { s with fbuf := s.fbuf.setIfInBounds s.fcnt.toNat x, fcnt := s.fcnt + 1 }

/-- `fb_push` (R131). -/
def fbPush (x : Sample) (s : State) : State :=
  let p := fbStore x s
  if p.fcnt = fullCount then fbHandoff p else p

/-- FBUF with PAD_VALUE in every entry from index `k` on (R136, R137). -/
def padFrom (k : Nat) (f : Frame) : Frame :=
  Vector.ofFn fun i : Fin 80 => if i.val < k then f[i.val] else Config.padValue

/-- The padding of a flush (R136): PAD_VALUE in FBUF[FCNT..79], then `FCNT <- N`. -/
def padBuffer (s : State) : State := { s with fbuf := padFrom s.fcnt.toNat s.fbuf, fcnt := fullCount }

/-- `fb_flush` (R136). -/
def fbFlush (s : State) : State := if s.fcnt = 0 then s else fbHandoff (padBuffer s)

end Sys2Proof.Machine
end

