-- ==== Sys2Proof/Machine/Operands.lean ====
section
/-! DEFINITION. The operand forms of the commands as values (00_scope.md R14, 30_encoding.md R83 to R86) and the byte order of
the one multi-byte unit the block composes (20_memory.md R67). -/

namespace Sys2Proof.Machine

/-- `as_i16` (R14, R84): the sample a 16-bit operand carries. -/
def asI16 (b : Sample) : Int := b.toInt

/-- `as_u16` (R14): the operand bits of a sample, `s mod 0x10000`. -/
def asU16 (s : Int) : Sample := BitVec.ofInt 16 s

/-- Bits [7:0] of a sample (R67). -/
def loByte (x : Sample) : Byte := x.extractLsb' 0 8

/-- Bits [15:8] of a sample (R67). -/
def hiByte (x : Sample) : Byte := x.extractLsb' 8 8

/-- The PCM16LE unit of a sample, low byte first (R67, 43_pipeline.md R178). -/
def pcmUnit (x : Sample) : List Byte := [loByte x, hiByte x]

/-- The sample a PCM16LE byte pair stands for, `as_i16(lo | (hi << 8))` (43_pipeline.md R192). -/
def pcmSample (lo hi : Byte) : Sample := lo.zeroExtend 16 ||| (hi.zeroExtend 16 <<< 8)

end Sys2Proof.Machine
end

