-- ==== Sys2Proof/Machine/Stream.lean ====
section
/-! DEFINITION. The commands of the stream: SAMPLE and EOS (43_pipeline.md R176 to R183). -/

namespace Sys2Proof.Machine

/-- What SAMPLE does in each format (R176 to R179). -/
def takeSample (x : Sample) (s : State) : State :=
  match s.fmtCode with
  | .mulaw => emitUnit [encodeMulaw x] (countSample s)
  | .alaw => emitUnit [encodeAlaw x] (countSample s)
  | .pcm16le => emitUnit (pcmUnit x) (countSample s)
  | .frame => fbPush x (countSample s)

/-- The end of EOS in FRAME (R180): a failed padded frame leaves the run in Error, otherwise the session is released. -/
def afterDraining (d : State) : State := if d.runState = .error then d else setRun .done (sessionRelease d)

/-- What EOS does (R180, R182, R183): in FRAME it drains within the step. -/
def endStream (s : State) : State :=
  match s.fmtCode with
  | .mulaw => setRun .done s
  | .alaw => setRun .done s
  | .pcm16le => setRun .done s
  | .frame => afterDraining (fbFlush (setRun .draining s))

/-- SAMPLE x (R176): legal in Streaming only. -/
def execSample (x : Sample) (s : State) : Host.Outcome State Fault Refusal := guarded (.sample x) s (takeSample x)

/-- EOS (R180): legal in Streaming only. -/
def execEos (s : State) : Host.Outcome State Fault Refusal := guarded .eos s endStream

end Sys2Proof.Machine
end

