-- ==== Sys2Proof/Machine/Dispatch.lean ====
section
/-! DEFINITION. The execution of a decoded command: one arm per constructor of Instr, each one direct call of a meaning. -/

namespace Sys2Proof.Machine

def exec (i : Instr) (s : State) : Host.Outcome State Fault Refusal :=
  match i with
  | .cfg f => Sys2Proof.Machine.execCfg f s
  | .start => Sys2Proof.Machine.execStart s
  | .sample x => Sys2Proof.Machine.execSample x s
  | .eos => Sys2Proof.Machine.execEos s
  | .srcerr c => Sys2Proof.Machine.execSrcerr c s
  | .cancel => Sys2Proof.Machine.execCancel s

end Sys2Proof.Machine
end

