-- ==== Sys2Proof/Machine/Fetch.lean ====
section
/-! DEFINITION. How the next command word reaches the block: the host presents it on the command port (20_memory.md R77,
70_reset_and_hazards.md R241), and the checks the step makes before it executes (43_pipeline.md R171). -/

namespace Sys2Proof.Machine

/-- What the step finds at the block's inputs. -/
inductive Fetched where
  /-- The host presents nothing: the block waits and holds all state (R241, 60_exceptions.md R235). -/
  | waiting
  /-- The host asserts reset; the state once the event is taken. -/
  | resetAsserted (s : State)
  /-- A word in Error: consumed with no effect, not even decoded (R190, R222.1). -/
  | consumed (s : State)
  /-- A word that decodes to Invalid (R222.2). -/
  | invalid (w : Word)
  /-- A command to execute; the state once the word is taken. -/
  | command (i : Instr) (s : State)
  deriving DecidableEq, Repr

/-- The start of the step of R171, up to `execute`. -/
def fetch (s : State) : Fetched :=
  match s.hostIn with
  | [] => .waiting
  | .reset :: rest => .resetAsserted { s with hostIn := rest }
  | .word w :: rest =>
    if s.runState = .error then .consumed { s with hostIn := rest }
    else
      match decode s.hasCancel w with
      | .error _ => .invalid w
      | .ok i => .command i { s with hostIn := rest }

/-- The word of `nbits` table bits presented as the host's next event; everything else stays (log entry 2). -/
def presentWord (s : State) (nbits w : Nat) : State :=
  { s with hostIn := .word (BitVec.ofNat 32 (w % 2 ^ nbits)) :: s.hostIn }

end Sys2Proof.Machine
end

