-- ==== Sys2Proof/Machine/Step.lean ====
section
/-! DEFINITION. One step of the block (43_pipeline.md R171, 20_memory.md R73): one host event, executed to completion. -/

namespace Sys2Proof.Machine

/-- The step: it waits, takes the reset input, consumes a word in Error, raises IllegalCommand, or executes a command. -/
def step (s : State) : Host.Outcome State Fault Refusal :=
  match fetch s with
  | .waiting => .next s
  | .resetAsserted t => .next (resetInput t)
  | .consumed t => .next t
  | .invalid w => .fault (.illegalCommand w)
  | .command i t => exec i t

/-- The state with the instruction of these table bits presented where the step takes its next instruction. -/
def State.withFetchWord (s : State) (nbits w : Nat) : State := presentWord s nbits w

end Sys2Proof.Machine
end

