-- ==== Sys2Proof/Machine/Assembler.lean ====
section
/-! DEFINITION. The command assembler of 30_encoding.md R90 and the pseudo-commands of R91. A line of text is read into an
`AsmLine`, whose operands are checked for range, expanded and encoded. The block never sees assembly text; log entry 10 names
the lexical conventions the spec leaves open. Text is a list of characters. -/

namespace Sys2Proof.Machine

/-- A numeric operand: decimal, or written `0x...` (R90). -/
inductive NumOperand where
  | dec (v : Int)
  | hex (n : Nat)
  deriving DecidableEq, Repr

/-- A format operand: a name, or `#k` (R90). -/
inductive FormatOperand where
  | name (f : Format)
  | number (k : Nat)
  deriving DecidableEq, Repr

/-- One line of command assembly (R90, R91). -/
inductive AsmLine where
  | blank
  | cfg (f : FormatOperand)
  | start
  | sample (v : NumOperand)
  | eos
  | srcerr (c : NumOperand)
  | cancel
  | chunk (vs : List NumOperand)
  | silence (k : Nat)
  | run (f : FormatOperand) (vs : List NumOperand)
  deriving DecidableEq, Repr

/-! ### Operands: out of range is rejected, never truncated (R90) -/

/-- 16 operand bits from a natural number. -/
def u16Operand (n : Nat) : Option (BitVec 16) := if n < 0x10000 then some (BitVec.ofNat 16 n) else none

/-- A SAMPLE operand: a decimal value in -32768..32767, or the raw 16 bits (R90). -/
def NumOperand.toSample : NumOperand → Option Sample
  | .dec v => if -32768 ≤ v ∧ v ≤ 32767 then some (asU16 v) else none
  | .hex n => u16Operand n

/-- A SRCERR operand: 0..65535, decimal or hex (R90). -/
def NumOperand.toCause : NumOperand → Option Cause
  | .dec v => if 0 ≤ v then u16Operand v.toNat else none
  | .hex n => u16Operand n

/-- A CFG operand: a format name, or `#k` with k in 0..3 (R90). -/
def FormatOperand.toFormat : FormatOperand → Option Format
  | .name f => some f
  | .number k => if k < 4 then some (Format.ofCode (BitVec.ofNat 2 k)) else none

/-! ### Expansion and encoding -/

/-- The commands of `CHUNK v1, ..., vk` (R91). -/
def expandChunk (vs : List NumOperand) : Option (List Instr) :=
  (vs.mapM NumOperand.toSample).map (List.map Instr.sample)

/-- The commands a line stands for (R90, R91); none where an operand is out of range. -/
def AsmLine.expand : AsmLine → Option (List Instr)
  | .blank => some []
  | .cfg f => f.toFormat.map fun g => [.cfg g]
  | .start => some [.start]
  | .sample v => v.toSample.map fun x => [.sample x]
  | .eos => some [.eos]
  | .srcerr c => c.toCause.map fun x => [.srcerr x]
  | .cancel => some [.cancel]
  | .chunk vs => expandChunk vs
  | .silence k => some (List.replicate k (.sample 0))
  | .run f vs => do
    let g ← f.toFormat
    let xs ← expandChunk vs
    return .cfg g :: .start :: xs ++ [.eos]

/-- The words a line assembles to. -/
def AsmLine.assemble (l : AsmLine) : Option (List Word) := l.expand.map (List.map encode)

/-! ### Reading a line of text -/

/-- The pieces of a line. -/
inductive Token where
  | text (cs : List Char)
  | comma
  | lbracket
  | rbracket
  deriving DecidableEq, Repr

/-- The text gathered so far, last character first, put before `ts`. -/
def pushText (acc : List Char) (ts : List Token) : List Token :=
  if acc.isEmpty then ts else .text acc.reverse :: ts

/-- The tokens of a line; `;` starts a comment (R90). -/
def tokens : (cs acc : List Char) → List Token
  | [], acc => pushText acc []
  | c :: cs, acc =>
    if c = ';' then pushText acc []
    else if c = ' ' ∨ c = '\t' then pushText acc (tokens cs [])
    else if c = ',' then pushText acc (.comma :: tokens cs [])
    else if c = '[' then pushText acc (.lbracket :: tokens cs [])
    else if c = ']' then pushText acc (.rbracket :: tokens cs [])
    else tokens cs (c :: acc)

/-- The hex digits in order of their value, capitals first. The spec writes capitals; the six small letters at the end are the
model's choice, log entry 10. -/
def hexDigits : List Char := "0123456789ABCDEFabcdef".toList

/-- The value of a hex digit: its place in the list, the small letters standing for the capitals six places before them. -/
def digitValue (c : Char) : Option Nat :=
  (hexDigits.idxOf? c).map fun place => if place < 16 then place else place - 6

/-- The number digits in a base spell, after the number `n`. -/
def digitsFrom (base n : Nat) : List Char → Option Nat
  | [] => some n
  | c :: cs =>
    match digitValue c with
    | some d => if d < base then digitsFrom base (n * base + d) cs else none
    | none => none

/-- A numeral of at least one digit. Leading zeros are accepted and change nothing, which is the model's choice, log entry 10. -/
def numeral (base : Nat) : List Char → Option Nat
  | [] => none
  | c :: cs => digitsFrom base 0 (c :: cs)

/-- A numeric operand as written (R90): `0x` makes it hex, everything else is decimal. How a minus sign, a leading zero and the
case of `0x` are read is the model's choice, log entry 10. -/
def readNum : List Char → Option NumOperand
  | '-' :: ds => (numeral 10 ds).map fun n => .dec (-(n : Int))
  | '0' :: 'x' :: ds => (numeral 16 ds).map .hex
  | ds => (numeral 10 ds).map fun n => .dec (n : Int)

/-- A format operand as written (R90). R90 does not give the radix of the `k` of `#k`; it is read as a decimal numeral only, with
leading zeros accepted (`#03` is `#3`, `#0x1` is rejected), which is the model's choice, log entry 10. -/
def readFormat (cs : List Char) : Option FormatOperand :=
  if cs = ['M', 'U', 'L', 'A', 'W'] then some (.name .mulaw)
  else if cs = ['A', 'L', 'A', 'W'] then some (.name .alaw)
  else if cs = ['P', 'C', 'M', '1', '6', 'L', 'E'] then some (.name .pcm16le)
  else if cs = ['F', 'R', 'A', 'M', 'E'] then some (.name .frame)
  else
    match cs with
    | '#' :: ds => (numeral 10 ds).map .number
    | _ => none

/-- One or more operands with commas between them. -/
def readOperands : List Token → Option (List NumOperand)
  | [.text v] => (readNum v).map fun x => [x]
  | .text v :: .comma :: rest => do
    let x ← readNum v
    let xs ← readOperands rest
    return x :: xs
  | _ => none

/-- No operand, or operands with commas between them (R91: k >= 0). -/
def readOperandList : List Token → Option (List NumOperand)
  | [] => some []
  | t :: ts => readOperands (t :: ts)

/-- `[v1, ..., vk]` (R91). -/
def readBracketed : List Token → Option (List NumOperand)
  | .lbracket :: rest => if rest.getLast? = some .rbracket then readOperandList rest.dropLast else none
  | _ => none

/-- The line the tokens after a mnemonic and the mnemonic itself make (R90, R91). -/
def readCommand (m : List Char) (ts : List Token) : Option AsmLine :=
  if m = ['C', 'F', 'G'] then
    match ts with
    | [.text f] => (readFormat f).map .cfg
    | _ => none
  else if m = ['S', 'T', 'A', 'R', 'T'] then
    match ts with
    | [] => some .start
    | _ => none
  else if m = ['S', 'A', 'M', 'P', 'L', 'E'] then
    match ts with
    | [.text v] => (readNum v).map .sample
    | _ => none
  else if m = ['E', 'O', 'S'] then
    match ts with
    | [] => some .eos
    | _ => none
  else if m = ['S', 'R', 'C', 'E', 'R', 'R'] then
    match ts with
    | [.text c] => (readNum c).map .srcerr
    | _ => none
  else if m = ['C', 'A', 'N', 'C', 'E', 'L'] then
    match ts with
    | [] => some .cancel
    | _ => none
  else if m = ['C', 'H', 'U', 'N', 'K'] then (readOperandList ts).map .chunk
  else if m = ['S', 'I', 'L', 'E', 'N', 'C', 'E'] then
    match ts with
    | [.text k] => (numeral 10 k).map .silence
    | _ => none
  else if m = ['R', 'U', 'N'] then
    match ts with
    | .text f :: .comma :: rest => do
      let g ← readFormat f
      let vs ← readBracketed rest
      return .run g vs
    | _ => none
  else none

/-- A line of assembly as text (R90). -/
def readLine (cs : List Char) : Option AsmLine :=
  match tokens cs [] with
  | [] => some .blank
  | .text m :: ts => readCommand m ts
  | _ => none

/-- The words a line of text assembles to; none where the line is rejected. -/
def assembleText (line : List Char) : Option (List Word) := (readLine line).bind AsmLine.assemble

/-- The words a program text assembles to, one command a line (R90). -/
def assembleLines : List (List Char) → Option (List Word)
  | [] => some []
  | l :: ls => do
    let ws ← assembleText l
    let rest ← assembleLines ls
    return ws ++ rest

end Sys2Proof.Machine
end

