-- ==== Sys2Proof/Machine/Flags.lean ====
section
/-! DEFINITION. The status port and the level outputs: the STATUS view, the register select, RUN_OK and RUN_FAIL
(10_state.md R35, R36, R38 to R42). The block has no other flags (R31), and no command writes STATUS (R39). -/

namespace Sys2Proof.Machine

/-- The code of STATE (R35). -/
def RunState.code : RunState → BitVec 3
  | .idle => 0
  | .streaming => 1
  | .draining => 2
  | .done => 3
  | .error => 4

/-- The code of ERR (R36). -/
def ErrKind.code : ErrKind → BitVec 3
  | .none => 0
  | .sourceRead => 1
  | .sinkWrite => 2
  | .encoderInit => 3
  | .encoderInvariant => 4
  | .cancelled => 5

/-- The code of SESS (R38). -/
def Session.code : Session → BitVec 2
  | .none => 0
  | .opened => 1
  | .closed => 2

/-- STATUS (R39): STATE [2:0], CFGD [3], FMT [5:4], ERR [8:6], FCNT [15:9], SESS [17:16], HASCAN [18], the rest 0. -/
def statusWord (s : State) : Word :=
  s.runState.code.zeroExtend 32 ||| ((BitVec.ofBool s.fmtCfgd).zeroExtend 32 <<< 3)
    ||| (s.fmtCode.code.zeroExtend 32 <<< 4) ||| (s.err.code.zeroExtend 32 <<< 6)
    ||| (s.fcnt.zeroExtend 32 <<< 9) ||| (s.sess.code.zeroExtend 32 <<< 16)
    ||| ((BitVec.ofBool s.hasCancel).zeroExtend 32 <<< 18)

/-- ERRINFO as the status port returns it, zero-extended (R40). -/
def errinfoWord (s : State) : Word := s.errinfo.zeroExtend 32

/-- The status port (R41): select 0 is STATUS, select 1 is ERRINFO, any other select reads 0. A read changes nothing, so it
is a function of the state at a boundary between two steps. -/
def statusRead (sel : Nat) (s : State) : Word :=
  if sel = 0 then statusWord s else if sel = 1 then errinfoWord s else 0

/-- RUN_OK (R42). -/
def runOk (s : State) : Bool := decide (s.runState = .done)

/-- RUN_FAIL (R42). -/
def runFail (s : State) : Bool := decide (s.runState = .error)

end Sys2Proof.Machine
end

