-- ==== Sys2Proof/Safety.lean ====
section
/-! DEFINITION. What a sound state and a sound run are, in the terms the statements use: the boundary invariants of 10_state.md
R43, the shape of the encoder log (42_encoder_adapter.md R161), fresh states, and the run of a sample stream
(43_pipeline.md §6). -/

namespace Sys2Proof.Machine

/-! ### Invariants at command boundaries (10_state.md R43) -/

/-- R43.1: never Draining. -/
abbrev notDraining (s : State) : Prop := s.runState ≠ .draining

/-- R43.2: Idle. -/
abbrev idleClean (s : State) : Prop := s.runState = .idle → s.sess = .none ∧ s.fcnt = 0 ∧ s.err = .none

/-- R43.3: Streaming. -/
abbrev streamingOpen (s : State) : Prop :=
  s.runState = .streaming →
    s.fmtCfgd = true ∧ (s.fmtCode = .frame → s.sess = .opened) ∧ (s.fmtCode ≠ .frame → s.sess = .none) ∧ s.err = .none

/-- R43.4: Done. -/
abbrev doneClosed (s : State) : Prop :=
  s.runState = .done →
    (s.fmtCode = .frame → s.sess = .closed) ∧ (s.fmtCode ≠ .frame → s.sess = .none) ∧ s.fcnt = 0 ∧ s.err = .none

/-- R43.5: Error. -/
abbrev errorReleased (s : State) : Prop := s.runState = .error → s.err ≠ .none ∧ s.sess ≠ .opened

/-- R43.6: a partial frame exists only in a FRAME run that is Streaming or in Error. -/
abbrev partialOnlyInFrame (s : State) : Prop :=
  s.fcnt ≠ 0 → s.fmtCode = .frame ∧ (s.runState = .streaming ∨ s.runState = .error)

/-- FCNT <= 79 at every command boundary (R34). -/
abbrev countInRange (s : State) : Prop := s.fcnt.toNat ≤ 79

/-- The six items of R43, and the range of FCNT of R34. -/
abbrev BoundaryInv (s : State) : Prop :=
  notDraining s ∧ idleClean s ∧ streamingOpen s ∧ doneClosed s ∧ errorReleased s ∧ partialOnlyInFrame s ∧ countInRange s

/-! ### The encoder log (R45, R46, R161) -/

/-- The frame of an Encode entry. -/
def EncCall.frame? : EncCall → Option Frame
  | .open_ => none
  | .encode f => some f
  | .close => none

/-- The frames submitted to the encoder, in order. -/
def encodedFrames (l : List EncCall) : List Frame := l.filterMap EncCall.frame?

/-- The log of a session: Open, the Encode entries, and the Close if it is closed. -/
def sessionLog (frames : List Frame) (isClosed : Bool) : List EncCall :=
  .open_ :: frames.map .encode ++ (if isClosed then [.close] else [])

/-- The log agrees with SESS: no call, or one failed open, while no session was ever open; else one Open first, Encode entries
only after it, and exactly one Close, last, once the session is closed (R152, R153, R161). -/
def logMatchesSession (s : State) : Prop :=
  match s.sess with
  | .none => s.obs.encLog = [] ∨ (s.obs.encLog = [.open_] ∧ s.runState = .error ∧ s.err = .encoderInit)
  | .opened => s.obs.encLog = sessionLog (encodedFrames s.obs.encLog) false
  | .closed => s.obs.encLog = sessionLog (encodedFrames s.obs.encLog) true

/-- NFRAMES is the number of Encode entries (R46). -/
abbrev framesCounted (s : State) : Prop := s.obs.nframes = (encodedFrames s.obs.encLog).length

/-- Every run a reset input has ended left no session open: its log is empty, one failed open, or a session that was closed
exactly once (R161, R240). -/
abbrev pastReleased (s : State) : Prop :=
  ∀ r ∈ s.past, r.encLog = [] ∨ r.encLog = [.open_] ∨ r.encLog = sessionLog (encodedFrames r.encLog) true

/-- The encoder-log invariant: the current run's log agrees with SESS and NFRAMES, and every past run's session was closed. -/
abbrev EncoderLogInv (s : State) : Prop := logMatchesSession s ∧ framesCounted s ∧ pastReleased s

/-- Nothing has been written in a run that has not started (R176, R214). -/
abbrev idleUnwritten (s : State) : Prop := s.runState = .idle → s.obs.out = [] ∧ s.obs.nwrites = 0

/-- A run has ended (43_pipeline.md R195). -/
abbrev runEnded (s : State) : Prop := s.runState = .done ∨ s.runState = .error

/-! ### What the block itself holds (10_state.md R47) -/

/-- The state without the records of the observation. -/
def hardware (s : State) : State := { s with obs := RunRecord.empty, past := [] }

/-! ### Runs from reset -/

/-- The registers stand as 10_state.md R48 states them and the record is new; FBUF, FMT.CODE, the parameter and all inputs are
arbitrary, and the host presents nothing yet. -/
abbrev Fresh (s : State) : Prop :=
  s.fmtCfgd = false ∧ s.runState = .idle ∧ s.fcnt = 0 ∧ s.err = .none ∧ s.errinfo = 0 ∧ s.sess = .none ∧
    s.obs = RunRecord.empty ∧ s.hostIn = []

/-- The run of 43_pipeline.md §6: `CFG f`, `START`, the samples, `EOS`. -/
def streamCommands (f : Format) (xs : List Sample) : List Instr := .cfg f :: .start :: (xs.map .sample ++ [.eos])

/-- The host presents these commands, in order. -/
def presenting (is : List Instr) (s : State) : State := { s with hostIn := is.map fun i => .word (encode i) }

/-- The state after the host has presented these commands and each has been stepped, or the fault that stopped the run. -/
def runCommands (is : List Instr) (s : State) : Host.Outcome State Fault Refusal :=
  Sys2Proof.core.run is.length (presenting is s)

/-- The unit of one sample in the formats that write one per sample (43_pipeline.md R176 to R178); FRAME writes none by itself. -/
def sampleUnit : Format → Sample → List Byte
  | .mulaw, x => [encodeMulaw x]
  | .alaw, x => [encodeAlaw x]
  | .pcm16le, x => pcmUnit x
  | .frame, _ => []

/-- The frame a SAMPLE hands off when it is the 80th (41_frame_buffer.md R131, R133). -/
def completedFrame (s : State) (x : Sample) : Frame := s.fbuf.setIfInBounds 79 x

/-- SAMPLE x only fills the buffer: no call of the sink or the encoder (43_pipeline.md R179). -/
abbrev sampleBuffers (s : State) : Prop := s.fmtCode = .frame ∧ s.fcnt ≠ 79

/-- SAMPLE x completes a frame for which the encoder returns a unit of illegal length (42_encoder_adapter.md R156). -/
abbrev sampleUnitBad (s : State) (x : Sample) : Prop :=
  s.fmtCode = .frame ∧ s.fcnt = 79 ∧
    ((unitAnswer s (completedFrame s x)).length = 0 ∨ 10 < (unitAnswer s (completedFrame s x)).length)

/-- SAMPLE x offers one write, which the sink answers with `a`: of the sample's own unit (43_pipeline.md R176), or in FRAME of
the unit, of legal length, of the frame it completes (42_encoder_adapter.md R157). -/
abbrev sampleWriteAnswered (s : State) (x : Sample) (a : Answer) : Prop :=
  (s.fmtCode ≠ .frame ∧ sinkAnswer s (sampleUnit s.fmtCode x) = a) ∨
  (s.fmtCode = .frame ∧ s.fcnt = 79 ∧ 1 ≤ (unitAnswer s (completedFrame s x)).length ∧
    (unitAnswer s (completedFrame s x)).length ≤ 10 ∧
    sinkAnswer (afterUnit s) (unitAnswer s (completedFrame s x)) = a)

/-- The units the encoder returns for these frames, in order, from a state on, each being written before the next is asked for
(42_encoder_adapter.md R157, R158). -/
def encoderUnits : List Frame → State → List (List Byte)
  | [], _ => []
  | f :: fs, s => unitAnswer s f :: encoderUnits fs (afterSink (afterUnit s))

/-- The number of frames of a stream of M samples, `ceil(M / 80)` (41_frame_buffer.md R139). -/
def frameCount (m : Nat) : Nat := (m + 79) / 80

/-- Sample number `k` of a stream, 0 past its end: what element `k mod 80` of frame `k div 80` holds (R141, R142). -/
def paddedSample (xs : List Sample) (k : Nat) : Sample := xs.getD k 0

/-- The frames of a stream: frame `j` holds samples 80j to 80j+79, zeros past the end (R140 to R142). -/
def streamFrames (xs : List Sample) : List Frame :=
  (List.range (frameCount xs.length)).map fun j => Vector.ofFn fun i : Fin 80 => paddedSample xs (80 * j + i.val)

end Sys2Proof.Machine
end

