-- ==== Sys2Proof/Certificates/Slice0/Obligations.lean ====
section
/-! DEFINITION. What is claimed of W2M-CORE, from the numbered rules of spec/. -/

open Sys2Proof Sys2Proof.Machine

/-! ### Encoding (30_encoding.md) -/

/-- R87 with R82 to R86: decoding an encoded command gives the command back, at every operand value, on every block that has
the command. -/
def Obligations.DecodeOfEncode : Prop :=
  ∀ (hasCancel : Bool) (i : Instr), wellFormed hasCancel i = true → decode hasCancel (encode i) = .ok i

/-- R87, R89: a word that decodes is the word of the command it decodes to, so no word has two meanings and no bit is
dropped. -/
def Obligations.EncodeOfDecode : Prop :=
  ∀ (hasCancel : Bool) (w : Word) (i : Instr),
    decode hasCancel w = .ok i → encode i = w ∧ wellFormed hasCancel i = true

/-- R88: exactly which words are Invalid, and what the step does with one outside and inside Error. -/
def Obligations.InvalidWordsExactly : Prop :=
  (∀ (hasCancel : Bool) (w : Word), (∃ e, decode hasCancel w = .error e) ↔
      (opField w = 0x0 ∨ 0x7 ≤ opField w) ∨ rsvField w ≠ 0 ∨
      (opField w = 0x1 ∧ (opndField w).extractLsb' 2 14 ≠ 0) ∨
      ((opField w = 0x2 ∨ opField w = 0x4 ∨ opField w = 0x6) ∧ opndField w ≠ 0) ∨
      (opField w = 0x6 ∧ hasCancel = false)) ∧
  ∀ (s : State) (w : Word) (rest : List HostEvent) (e : Invalid),
    s.hostIn = .word w :: rest → decode s.hasCancel w = .error e →
      (s.runState ≠ .error → step s = .fault (.illegalCommand w)) ∧
      (s.runState = .error → step s = .next { s with hostIn := rest })

/-- R89: a word is the command of a row exactly when match and mask say so, at most one row takes any word, and a word no row
takes is Invalid. -/
def Obligations.MatchMaskDecides : Prop :=
  ∀ (hasCancel : Bool) (w : Word),
    (∀ r ∈ opcodeTable, r.takes hasCancel w = true ↔ ∃ i, decode hasCancel w = .ok i ∧ i.row = r) ∧
    (∀ r ∈ opcodeTable, ∀ q ∈ opcodeTable, r.takes hasCancel w = true → q.takes hasCancel w = true → r = q) ∧
    ((∀ r ∈ opcodeTable, r.takes hasCancel w = false) → ∃ e, decode hasCancel w = .error e)

/-- R92: the worked encodings, as assembled text and as decoded words. -/
def Obligations.WorkedEncodings : Prop :=
  (assembleText "CFG ALAW".toList = some [0x10000001] ∧ decode false 0x10000001 = .ok (.cfg .alaw)) ∧
  (assembleText "CFG FRAME".toList = some [0x10000003] ∧ decode false 0x10000003 = .ok (.cfg .frame)) ∧
  (assembleText "START".toList = some [0x20000000] ∧ decode false 0x20000000 = .ok .start) ∧
  (assembleText "SAMPLE 0".toList = some [0x30000000] ∧ decode false 0x30000000 = .ok (.sample (asU16 0))) ∧
  (assembleText "SAMPLE 1".toList = some [0x30000001] ∧ decode false 0x30000001 = .ok (.sample (asU16 1))) ∧
  (assembleText "SAMPLE -1".toList = some [0x3000FFFF] ∧ decode false 0x3000FFFF = .ok (.sample (asU16 (-1)))) ∧
  (assembleText "SAMPLE 32767".toList = some [0x30007FFF] ∧ decode false 0x30007FFF = .ok (.sample (asU16 32767))) ∧
  (assembleText "SAMPLE -32768".toList = some [0x30008000] ∧ decode false 0x30008000 = .ok (.sample (asU16 (-32768)))) ∧
  (assembleText "EOS".toList = some [0x40000000] ∧ decode false 0x40000000 = .ok .eos) ∧
  (assembleText "SRCERR 5".toList = some [0x50000005] ∧ decode false 0x50000005 = .ok (.srcerr 5)) ∧
  (assembleText "CANCEL".toList = some [0x60000000] ∧ decode true 0x60000000 = .ok .cancel) ∧
  decode true 0x10000004 = .error .cfgOperand ∧ decode true 0x30010000 = .error .reservedField ∧
  decode true 0x00000000 = .error .reservedOpcode ∧ decode false 0x60000000 = .error .noCancel

/-- R90: each command line assembles to its word, and an operand out of range is rejected rather than truncated; the text forms
on examples. -/
def Obligations.AssemblerOperands : Prop :=
  (∀ f : Format, (AsmLine.cfg (.name f)).assemble = some [0x10000000 ||| f.code.zeroExtend 32]) ∧
  (∀ k : Nat, (AsmLine.cfg (.number k)).assemble = if k < 4 then some [0x10000000 ||| BitVec.ofNat 32 k] else none) ∧
  AsmLine.start.assemble = some [0x20000000] ∧
  (∀ v : Int, (AsmLine.sample (.dec v)).assemble =
    if -32768 ≤ v ∧ v ≤ 32767 then some [0x30000000 ||| (BitVec.ofInt 16 v).zeroExtend 32] else none) ∧
  (∀ n : Nat, (AsmLine.sample (.hex n)).assemble =
    if n < 65536 then some [0x30000000 ||| BitVec.ofNat 32 n] else none) ∧
  AsmLine.eos.assemble = some [0x40000000] ∧
  (∀ v : Int, (AsmLine.srcerr (.dec v)).assemble =
    if 0 ≤ v ∧ v ≤ 65535 then some [0x50000000 ||| BitVec.ofInt 32 v] else none) ∧
  (∀ n : Nat, (AsmLine.srcerr (.hex n)).assemble =
    if n < 65536 then some [0x50000000 ||| BitVec.ofNat 32 n] else none) ∧
  AsmLine.cancel.assemble = some [0x60000000] ∧
  assembleText "CFG #2 ; raw".toList = some [0x10000002] ∧ assembleText "CFG #4".toList = none ∧
  assembleText "SAMPLE 0x1234".toList = some [0x30001234] ∧ assembleText "SAMPLE 32768".toList = none ∧
  assembleText "SRCERR 0xBEEF".toList = some [0x5000BEEF] ∧ assembleText "SRCERR 65536".toList = none

/-- R91: the pseudo-commands expand to the commands the table gives, and are rejected where one of their operands is. -/
def Obligations.PseudoCommandsExpand : Prop :=
  (∀ vs : List NumOperand,
    (AsmLine.chunk vs).assemble = (vs.mapM fun v => (AsmLine.sample v).assemble).map List.flatten) ∧
  (∀ k : Nat, (AsmLine.silence k).assemble = some (List.replicate k 0x30000000)) ∧
  (∀ (f : FormatOperand) (vs : List NumOperand), (AsmLine.run f vs).assemble =
    ((AsmLine.cfg f).assemble.bind fun a => AsmLine.start.assemble.bind fun b =>
      (AsmLine.chunk vs).assemble.bind fun c => AsmLine.eos.assemble.map fun d => a ++ b ++ c ++ d))

/-- R143: every partition of a sample sequence into chunks assembles to the words of the undivided sequence, so the block
cannot see chunk boundaries. -/
def Obligations.ChunkBoundariesInvisible : Prop :=
  ∀ chunks : List (List NumOperand),
    (chunks.mapM fun c => (AsmLine.chunk c).assemble).map List.flatten = (AsmLine.chunk chunks.flatten).assemble

/-! ### The step (43_pipeline.md §1, 60_exceptions.md §3, §4) -/

/-- R171: outside Error, when the word the host presents decodes to a command, the step is that command's execution on the state
with the word taken. -/
def Obligations.StepRunsDecodedCommand : Prop :=
  ∀ (s : State) (w : Word) (rest : List HostEvent) (i : Instr),
    s.hostIn = .word w :: rest → s.runState ≠ .error → decode s.hasCancel w = .ok i →
      step s = exec i { s with hostIn := rest }

/-- R241, R235: with no word presented the block waits and holds all state. -/
def Obligations.StepWaitsForAWord : Prop := ∀ s : State, s.hostIn = [] → step s = .next s

/-- R220: exactly when a step raises IllegalCommand, and that the fault names the word presented. -/
def Obligations.IllegalCommandExactly : Prop :=
  ∀ (s : State) (w v : Word) (rest : List HostEvent), s.hostIn = .word w :: rest →
    (step s = .fault (.illegalCommand v) ↔
      v = w ∧ s.runState ≠ .error ∧
        ((∃ e, decode s.hasCancel w = .error e) ∨ ∃ i, decode s.hasCancel w = .ok i ∧ legal s i = false))

/-- R173: the legality table, read off what each command does: outside Error it executes exactly where the table says yes and
is IllegalCommand elsewhere, and in Error it is consumed. (Draining, which no boundary shows, is left to log entry 8.) -/
def Obligations.LegalityTable : Prop :=
  (∀ (s : State) (i : Instr), s.runState = .error → exec i s = .next s) ∧
  ∀ (s : State) (i : Instr), s.runState ≠ .error → s.runState ≠ .draining →
    let allowed : Prop := match i with
      | .cfg _ => s.runState = .idle
      | .start => s.runState = .idle ∧ s.fmtCfgd = true
      | .sample _ => s.runState = .streaming
      | .eos => s.runState = .streaming
      | .srcerr _ => s.runState = .streaming
      | .cancel => s.runState = .streaming ∧ s.hasCancel = true
    (allowed → ∃ t, exec i s = .next t) ∧ (¬ allowed → exec i s = .fault (.illegalCommand (encode i)))

/-- R221: the words that raise IllegalCommand, state by state. -/
def Obligations.IllegalWordsByState : Prop :=
  ∀ (s : State) (w : Word) (rest : List HostEvent), s.hostIn = .word w :: rest → s.runState ≠ .draining →
    (step s = .fault (.illegalCommand w) ↔
      ((∃ e, decode s.hasCancel w = .error e) ∧
        (s.runState = .idle ∨ s.runState = .streaming ∨ s.runState = .done)) ∨
      (s.runState = .idle ∧
        ((∃ x, w = encode (.sample x)) ∨ w = encode .eos ∨ (∃ c, w = encode (.srcerr c)) ∨ w = encode .cancel ∨
          (w = encode .start ∧ s.fmtCfgd = false))) ∨
      (s.runState = .streaming ∧ ((∃ f, w = encode (.cfg f)) ∨ w = encode .start)) ∨
      s.runState = .done)

/-- R190: in Error every word, valid or not, is consumed with no effect. -/
def Obligations.ErrorConsumesEveryWord : Prop :=
  ∀ s : State, s.runState = .error →
    (∀ (w : Word) (rest : List HostEvent), s.hostIn = .word w :: rest → step s = .next { s with hostIn := rest }) ∧
    ∀ i : Instr, exec i s = .next s

/-- R223: after error entry, any number of words of any kind leaves everything as it is: no second error, no second release. -/
def Obligations.OneErrorPerRun : Prop :=
  ∀ (s : State) (ws : List Word), s.runState = .error → s.hostIn = ws.map .word →
    Sys2Proof.core.run ws.length s = .next { s with hostIn := [] }

/-- R170: the run state moves only as the transition table lists; the reset input moves it to Idle from any state, nothing else
leaves Done, and a word that makes no move is IllegalCommand. A SAMPLE stays when it only fills the buffer or its write is
answered ok, and goes to Error by the answer of its write or by the length of its unit. -/
def Obligations.RunStateMovesAsListed : Prop :=
  (∀ (s : State) (rest : List HostEvent), s.hostIn = .reset :: rest → ∃ t, step s = .next t ∧ t.runState = .idle) ∧
  (∀ (s : State) (w : Word) (rest : List HostEvent), s.hostIn = .word w :: rest →
    ((∃ t, step s = .next t) ∨ step s = .fault (.illegalCommand w)) ∧
    (s.runState = .done → step s = .fault (.illegalCommand w))) ∧
  ∀ (s t : State) (w : Word) (rest : List HostEvent), s.hostIn = .word w :: rest → step s = .next t →
    (s.runState = .idle ∧ (∃ f, w = encode (.cfg f)) ∧ t.runState = .idle) ∨
    (s.runState = .idle ∧ w = encode .start ∧ s.fmtCode ≠ .frame ∧ t.runState = .streaming) ∨
    (s.runState = .idle ∧ w = encode .start ∧ s.fmtCode = .frame ∧ openAnswer s = .ok ∧ t.runState = .streaming) ∨
    (s.runState = .idle ∧ w = encode .start ∧ s.fmtCode = .frame ∧ (∃ c, openAnswer s = .fail c) ∧
      t.runState = .error ∧ t.err = .encoderInit) ∨
    (s.runState = .streaming ∧ (∃ x, w = encode (.sample x) ∧ (sampleBuffers s ∨ sampleWriteAnswered s x .ok)) ∧
      t.runState = .streaming) ∨
    (s.runState = .streaming ∧ (∃ x c, w = encode (.sample x) ∧ sampleWriteAnswered s x (.fail c)) ∧ t.runState = .error ∧
      t.err = .sinkWrite) ∨
    (s.runState = .streaming ∧ (∃ x, w = encode (.sample x) ∧ sampleUnitBad s x) ∧ t.runState = .error ∧
      t.err = .encoderInvariant) ∨
    (s.runState = .streaming ∧ w = encode .eos ∧ s.fmtCode ≠ .frame ∧ t.runState = .done) ∨
    (s.runState = .streaming ∧ w = encode .eos ∧ s.fmtCode = .frame ∧
      (t.runState = .done ∨ (t.runState = .error ∧ (t.err = .sinkWrite ∨ t.err = .encoderInvariant)))) ∨
    (s.runState = .streaming ∧ (∃ c, w = encode (.srcerr c)) ∧ t.runState = .error ∧ t.err = .sourceRead) ∨
    (s.runState = .streaming ∧ w = encode .cancel ∧ s.hasCancel = true ∧ t.runState = .error ∧ t.err = .cancelled) ∨
    (s.runState = .error ∧ t.runState = .error)

/-- R188: from START on, FMT does not change until reset, and CFG is illegal outside Idle (consumed in Error). -/
def Obligations.FormatFixedForTheRun : Prop :=
  (∀ (s t : State) (w : Word) (rest : List HostEvent), s.hostIn = .word w :: rest →
    (s.runState ≠ .idle ∨ w = encode .start) → step s = .next t →
      t.fmtCode = s.fmtCode ∧ t.fmtCfgd = s.fmtCfgd) ∧
  ∀ (s : State) (f : Format), s.runState ≠ .idle → s.runState ≠ .error →
    exec (.cfg f) s = .fault (.illegalCommand (encode (.cfg f)))

/-! ### Reset and the status port (70_reset_and_hazards.md §1, 10_state.md §3, §6) -/

/-- R48: the reset values, for each value of HAS_CANCEL, and that the machine's own reset state has the default false. FBUF,
which R48 leaves unspecified, is not mentioned. -/
def Obligations.ResetValues : Prop :=
  State.reset = State.resetWith false ∧
  ∀ hasCancel : Bool,
    let s := State.resetWith hasCancel
    s.hasCancel = hasCancel ∧ s.fmtCfgd = false ∧ s.fmtCode.code = 0 ∧ s.runState = .idle ∧ s.fcnt = 0 ∧ s.err = .none ∧
      s.errinfo = 0 ∧ s.sess = .none ∧ statusRead 0 s = (if hasCancel then 0x00040000 else 0x00000000) ∧
      runOk s = false ∧ runFail s = false ∧ s.obs.out = [] ∧ s.obs.encLog = [] ∧
      s.obs.nsamp = 0 ∧ s.obs.nframes = 0 ∧ s.obs.nwrites = 0

/-- R240, R242: the reset input, in any state: the session is closed if it is open, every register takes its reset value, the
run's record is kept with that Close as its last entry and with every accepted byte, and a new record starts. That ended
records are kept in the list `past` is the model's choice, log entry 7. No rule says what FBUF then holds, and neither does
this statement. -/
def Obligations.ResetInputEndsRun : Prop :=
  ∀ (s : State) (rest : List HostEvent), s.hostIn = .reset :: rest → ∃ t, step s = .next t ∧
    t.fmtCfgd = false ∧ t.fmtCode.code = 0 ∧ t.runState = .idle ∧ t.fcnt = 0 ∧ t.err = .none ∧ t.errinfo = 0 ∧
    t.sess = .none ∧ t.obs = RunRecord.empty ∧
    t.past = s.past ++
      [{ s.obs with encLog := if s.sess = .opened then s.obs.encLog ++ [.close] else s.obs.encLog }] ∧
    t.hasCancel = s.hasCancel ∧ t.hostIn = rest ∧ t.sinkIn = s.sinkIn ∧ t.openIn = s.openIn ∧ t.encIn = s.encIn

/-- R39 to R42: the fields of STATUS, ERRINFO through the port, every other select, and the level outputs. -/
def Obligations.StatusPortFields : Prop :=
  ∀ s : State,
    ((statusRead 0 s).extractLsb' 0 3 = (match s.runState with
      | .idle => 0
      | .streaming => 1
      | .draining => 2
      | .done => 3
      | .error => 4) ∧
    (statusRead 0 s).extractLsb' 3 1 = BitVec.ofBool s.fmtCfgd ∧
    (statusRead 0 s).extractLsb' 4 2 = (match s.fmtCode with
      | .mulaw => 0
      | .alaw => 1
      | .pcm16le => 2
      | .frame => 3) ∧
    (statusRead 0 s).extractLsb' 6 3 = (match s.err with
      | .none => 0
      | .sourceRead => 1
      | .sinkWrite => 2
      | .encoderInit => 3
      | .encoderInvariant => 4
      | .cancelled => 5) ∧
    (statusRead 0 s).extractLsb' 9 7 = s.fcnt ∧
    (statusRead 0 s).extractLsb' 16 2 = (match s.sess with
      | .none => 0
      | .opened => 1
      | .closed => 2) ∧
    (statusRead 0 s).extractLsb' 18 1 = BitVec.ofBool s.hasCancel ∧
    (statusRead 0 s).extractLsb' 19 13 = 0) ∧
    ((statusRead 1 s).extractLsb' 0 16 = s.errinfo ∧ (statusRead 1 s).extractLsb' 16 16 = 0) ∧
    (∀ sel : Nat, sel ≠ 0 → sel ≠ 1 → statusRead sel s = 0) ∧
    (runOk s = true ↔ s.runState = .done) ∧ (runFail s = true ↔ s.runState = .error)

/-! ### Error entry (60_exceptions.md §2) -/

/-- R215 with R160: error entry writes ERR, ERRINFO and STATE, closes the session if it is open and only then, and changes
nothing else; a second release does nothing. -/
def Obligations.ErrorEntryWrites : Prop :=
  (∀ (k : ErrKind) (c : Cause) (s : State), s.sess = .opened → enterError k c s =
    { s with err := k, errinfo := c, runState := .error, sess := .closed,
             obs := { s.obs with encLog := s.obs.encLog ++ [.close] } }) ∧
  (∀ (k : ErrKind) (c : Cause) (s : State), s.sess ≠ .opened → enterError k c s =
    { s with err := k, errinfo := c, runState := .error }) ∧
  ∀ s : State, sessionRelease (sessionRelease s) = sessionRelease s

/-! ### The commands before and after the stream (43_pipeline.md R172, R174, R184, R186) -/

/-- R172: CFG's word; CFG in Idle writes FMT and nothing else, the last of several wins, and elsewhere it is IllegalCommand; the
worked example's STATUS. -/
def Obligations.CfgSelectsFormat : Prop :=
  (∀ f : Format, encode (.cfg f) = 0x10000000 ||| f.code.zeroExtend 32) ∧
  (∀ (f : Format) (s : State), s.runState = .idle → exec (.cfg f) s = .next { s with fmtCode := f, fmtCfgd := true }) ∧
  (∀ (f g : Format) (s : State), s.runState = .idle →
    exec (.cfg g) { s with fmtCode := f, fmtCfgd := true } = .next { s with fmtCode := g, fmtCfgd := true }) ∧
  (∀ (f : Format) (s : State), s.runState = .streaming ∨ s.runState = .done →
    exec (.cfg f) s = .fault (.illegalCommand (encode (.cfg f)))) ∧
  statusRead 0 { State.reset with fmtCode := .alaw, fmtCfgd := true } = 0x00000018

/-- R174, R151: START's word, and START in Idle. Without a format, or outside Idle, it is IllegalCommand; in MULAW, ALAW and PCM16LE it only moves to Streaming; in
FRAME it calls the encoder once, and opens the session or enters Error with the encoder's cause and no Close. SESS is NONE
in Idle at every boundary (R43.2, the premise). -/
def Obligations.StartBeginsRun : Prop :=
  encode .start = 0x20000000 ∧
  (∀ s : State, s.runState = .streaming ∨ s.runState = .done → exec .start s = .fault (.illegalCommand (encode .start))) ∧
  ∀ s : State, s.runState = .idle → idleClean s →
    (s.fmtCfgd = false → exec .start s = .fault (.illegalCommand (encode .start))) ∧
    (s.fmtCfgd = true → s.fmtCode ≠ .frame → exec .start s = .next { s with runState := .streaming }) ∧
    (s.fmtCfgd = true → s.fmtCode = .frame → openAnswer s = .ok →
      exec .start s = .next { afterOpen s with
        runState := .streaming, sess := .opened, obs := { s.obs with encLog := s.obs.encLog ++ [.open_] } }) ∧
    (∀ c : Cause, s.fmtCfgd = true → s.fmtCode = .frame → openAnswer s = .fail c →
      exec .start s = .next { afterOpen s with
        runState := .error, err := .encoderInit, errinfo := c,
        obs := { s.obs with encLog := s.obs.encLog ++ [.open_] } })

/-- R184: SRCERR's word; SRCERR in Streaming enters Error with SourceReadError and its operand; FBUF, FCNT, OUT and all else stay, and an open
session is closed. In Idle and Done it is IllegalCommand. -/
def Obligations.SrcerrEntersError : Prop :=
  (∀ c : Cause, encode (.srcerr c) = 0x50000000 ||| c.zeroExtend 32) ∧
  (∀ (c : Cause) (s : State), s.runState = .streaming → s.sess = .opened →
    exec (.srcerr c) s = .next { s with err := .sourceRead, errinfo := c, runState := .error, sess := .closed,
                                        obs := { s.obs with encLog := s.obs.encLog ++ [.close] } }) ∧
  (∀ (c : Cause) (s : State), s.runState = .streaming → s.sess ≠ .opened →
    exec (.srcerr c) s = .next { s with err := .sourceRead, errinfo := c, runState := .error }) ∧
  (∀ (c : Cause) (s : State), s.runState = .idle ∨ s.runState = .done →
    exec (.srcerr c) s = .fault (.illegalCommand (encode (.srcerr c))))

/-- R186, R218: CANCEL, on a block that has it, in Streaming enters Error with Cancelled and cause 0, as SRCERR does; in Idle and
Done, and on a block without it, it is IllegalCommand. -/
def Obligations.CancelEntersError : Prop :=
  (∀ s : State, s.hasCancel = true → s.runState = .streaming → s.sess = .opened →
    exec .cancel s = .next { s with err := .cancelled, errinfo := 0, runState := .error, sess := .closed,
                                    obs := { s.obs with encLog := s.obs.encLog ++ [.close] } }) ∧
  (∀ s : State, s.hasCancel = true → s.runState = .streaming → s.sess ≠ .opened →
    exec .cancel s = .next { s with err := .cancelled, errinfo := 0, runState := .error }) ∧
  (∀ s : State, s.runState = .idle ∨ s.runState = .done ∨ (s.runState = .streaming ∧ s.hasCancel = false) →
    exec .cancel s = .fault (.illegalCommand 0x60000000))

/-! ### SAMPLE (43_pipeline.md R176 to R179) -/

/-- R177: SAMPLE in MULAW and ALAW offers the one companded byte in one write: on ok it is appended, on fail nothing is and the
run is in Error with the sink's cause. The corner cases are the rule's. -/
def Obligations.CompandedSampleWritesOneByte : Prop :=
  (∀ (s : State) (x : Sample) (b : Byte), s.runState = .streaming → streamingOpen s →
    (s.fmtCode = .mulaw ∧ b = encodeMulaw x) ∨ (s.fmtCode = .alaw ∧ b = encodeAlaw x) →
      (sinkAnswer s [b] = .ok → exec (.sample x) s = .next { afterSink s with
        obs := { s.obs with out := s.obs.out ++ [b], nsamp := s.obs.nsamp + 1, nwrites := s.obs.nwrites + 1 } }) ∧
      (∀ c : Cause, sinkAnswer s [b] = .fail c → exec (.sample x) s = .next { afterSink s with
        err := .sinkWrite, errinfo := c, runState := .error,
        obs := { s.obs with nsamp := s.obs.nsamp + 1, nwrites := s.obs.nwrites + 1 } })) ∧
  encodeMulaw (asU16 (-32768)) = 0x00 ∧ encodeAlaw (asU16 (-32768)) = 0x2A ∧
  encodeMulaw (asU16 0) = 0xFF ∧ encodeAlaw (asU16 0) = 0xD5 ∧ encodeAlaw (asU16 1000) = 0xFA

/-- R178, R67: SAMPLE in PCM16LE offers the two bytes, low byte first, in one write: both are appended or neither is. -/
def Obligations.PcmSampleWritesTwoBytes : Prop :=
  (∀ (s : State) (x : Sample), s.runState = .streaming → streamingOpen s → s.fmtCode = .pcm16le →
    let u : List Byte := [x.extractLsb' 0 8, x.extractLsb' 8 8]
    (sinkAnswer s u = .ok → exec (.sample x) s = .next { afterSink s with
      obs := { s.obs with out := s.obs.out ++ u, nsamp := s.obs.nsamp + 1, nwrites := s.obs.nwrites + 1 } }) ∧
    (∀ c : Cause, sinkAnswer s u = .fail c → exec (.sample x) s = .next { afterSink s with
      err := .sinkWrite, errinfo := c, runState := .error,
      obs := { s.obs with nsamp := s.obs.nsamp + 1, nwrites := s.obs.nwrites + 1 } })) ∧
  pcmUnit (asU16 (-1)) = [0xFF, 0xFF] ∧ pcmUnit (asU16 (-32768)) = [0x00, 0x80] ∧
  pcmUnit (asU16 32767) = [0xFF, 0x7F] ∧ pcmUnit 0x1234 = [0x34, 0x12]

/-- R179, R131: a FRAME push that completes no frame stores the sample bit for bit at FBUF[FCNT], counts it, and calls nothing
outside the block. -/
def Obligations.FrameSampleStores : Prop :=
  ∀ (s : State) (x : Sample), s.runState = .streaming → s.fmtCode = .frame → s.fcnt.toNat < 79 →
    ∃ t, exec (.sample x) s = .next t ∧
      t = { s with fbuf := t.fbuf, fcnt := s.fcnt + 1, obs := { s.obs with nsamp := s.obs.nsamp + 1 } } ∧
      t.fcnt.toNat = s.fcnt.toNat + 1 ∧
      ∀ (i : Nat) (h : i < 80), t.fbuf[i] = if i = s.fcnt.toNat then x else s.fbuf[i]

/-- R179, R132, R133, R157: the push that completes a frame hands FBUF with the sample at index 79 to the encoder, with FCNT cleared
first: a unit of illegal length enters EncoderInvariantError with nothing written, a legal unit is offered to the sink in
one write, and a refused write enters SinkWriteError; both errors close the session. -/
def Obligations.FrameSampleCompletes : Prop :=
  ∀ (s : State) (x : Sample), s.runState = .streaming → s.fmtCode = .frame → s.sess = .opened → s.fcnt = 79 →
    let f : Frame := s.fbuf.setIfInBounds 79 x
    let u := unitAnswer s f
    let a := afterUnit s
    (u.length = 0 ∨ 10 < u.length → exec (.sample x) s = .next { a with
      fbuf := f, fcnt := 0, err := .encoderInvariant, errinfo := BitVec.ofNat 16 (min u.length 0xFFFF),
      runState := .error, sess := .closed,
      obs := { s.obs with encLog := s.obs.encLog ++ [.encode f, .close], nsamp := s.obs.nsamp + 1,
                          nframes := s.obs.nframes + 1 } }) ∧
    (1 ≤ u.length → u.length ≤ 10 → sinkAnswer a u = .ok → exec (.sample x) s = .next { afterSink a with
      fbuf := f, fcnt := 0,
      obs := { s.obs with out := s.obs.out ++ u, encLog := s.obs.encLog ++ [.encode f], nsamp := s.obs.nsamp + 1,
                          nframes := s.obs.nframes + 1, nwrites := s.obs.nwrites + 1 } }) ∧
    (∀ c : Cause, 1 ≤ u.length → u.length ≤ 10 → sinkAnswer a u = .fail c →
      exec (.sample x) s = .next { afterSink a with
        fbuf := f, fcnt := 0, err := .sinkWrite, errinfo := c, runState := .error, sess := .closed,
        obs := { s.obs with encLog := s.obs.encLog ++ [.encode f, .close], nsamp := s.obs.nsamp + 1,
                            nframes := s.obs.nframes + 1, nwrites := s.obs.nwrites + 1 } })

/-! ### EOS (43_pipeline.md R180 to R183) -/

/-- R182: EOS in MULAW, ALAW and PCM16LE goes straight to Done and changes nothing else. -/
def Obligations.EosWithoutFrames : Prop :=
  ∀ s : State, s.runState = .streaming → s.fmtCode ≠ .frame → exec .eos s = .next { s with runState := .done }

/-- R183, R136, R137: EOS in FRAME with an empty buffer only closes the session; with a partial frame it encodes that frame, zero
from FCNT to 79, exactly once, and ends Done with the session closed after it, or in Error with the session closed by
error entry. -/
def Obligations.EosFlushesFrame : Prop :=
  ∀ s : State, s.runState = .streaming → s.fmtCode = .frame → s.sess = .opened →
    (s.fcnt = 0 → exec .eos s = .next { s with
      runState := .done, sess := .closed, obs := { s.obs with encLog := s.obs.encLog ++ [.close] } }) ∧
    (s.fcnt ≠ 0 → ∀ f : Frame, (∀ (i : Nat) (h : i < 80), f[i] = if i < s.fcnt.toNat then s.fbuf[i] else 0) →
      let u := unitAnswer s f
      let a := afterUnit s
      (u.length = 0 ∨ 10 < u.length → exec .eos s = .next { a with
        fbuf := f, fcnt := 0, err := .encoderInvariant, errinfo := BitVec.ofNat 16 (min u.length 0xFFFF),
        runState := .error, sess := .closed,
        obs := { s.obs with encLog := s.obs.encLog ++ [.encode f, .close], nframes := s.obs.nframes + 1 } }) ∧
      (1 ≤ u.length → u.length ≤ 10 → sinkAnswer a u = .ok → exec .eos s = .next { afterSink a with
        fbuf := f, fcnt := 0, runState := .done, sess := .closed,
        obs := { s.obs with out := s.obs.out ++ u, encLog := s.obs.encLog ++ [.encode f, .close],
                            nframes := s.obs.nframes + 1, nwrites := s.obs.nwrites + 1 } }) ∧
      (∀ c : Cause, 1 ≤ u.length → u.length ≤ 10 → sinkAnswer a u = .fail c → exec .eos s = .next { afterSink a with
        fbuf := f, fcnt := 0, err := .sinkWrite, errinfo := c, runState := .error, sess := .closed,
        obs := { s.obs with encLog := s.obs.encLog ++ [.encode f, .close], nframes := s.obs.nframes + 1,
                            nwrites := s.obs.nwrites + 1 } }))

/-! ### Frames and whole-machine rules -/

/-- What a command leaves unchanged, for every command and every outcome of it that is a next state: the parameter, the past
records and the host's events; FMT but for CFG; FBUF and FCNT but for SAMPLE and EOS in FRAME (R135); ERR and ERRINFO but
for entering Error; STATE and SESS under CFG; SESS under every SAMPLE that stays Streaming; the output, the counts and the
agents' answers of the commands that use none. -/
def Obligations.CommandFrame : Prop :=
  ∀ (i : Instr) (s t : State), exec i s = .next t →
    (t.hasCancel = s.hasCancel ∧ t.past = s.past ∧ t.hostIn = s.hostIn) ∧
    ((∀ f, i ≠ .cfg f) → t.fmtCode = s.fmtCode ∧ t.fmtCfgd = s.fmtCfgd) ∧
    (s.fmtCode ≠ .frame ∨ ((∀ x, i ≠ .sample x) ∧ i ≠ .eos) → t.fbuf = s.fbuf ∧ t.fcnt = s.fcnt) ∧
    (t.runState ≠ .error ∨ s.runState = .error → t.err = s.err ∧ t.errinfo = s.errinfo) ∧
    ((∃ f, i = .cfg f) → t.runState = s.runState ∧ t.sess = s.sess) ∧
    ((∃ x, i = .sample x) → t.runState ≠ .error → t.runState = s.runState ∧ t.sess = s.sess) ∧
    ((∀ x, i ≠ .sample x) → t.obs.nsamp = s.obs.nsamp) ∧
    ((∀ x, i ≠ .sample x) → i ≠ .eos →
      t.obs.out = s.obs.out ∧ t.obs.nwrites = s.obs.nwrites ∧ t.obs.nframes = s.obs.nframes ∧
        t.sinkIn = s.sinkIn ∧ t.encIn = s.encIn) ∧
    (s.fmtCode ≠ .frame → t.encIn = s.encIn ∧ t.obs.nframes = s.obs.nframes) ∧
    (i ≠ .start → t.openIn = s.openIn)

/-- R63, R66: no command removes, rewrites or reorders a byte of OUT; a step appends nothing, or one whole unit of one counted
write, of 1 byte in MULAW and ALAW, 2 in PCM16LE and 1 to 10 in FRAME. -/
def Obligations.OutputGrowsByWholeUnits : Prop :=
  ∀ (s t : State) (w : Word) (rest : List HostEvent), s.hostIn = .word w :: rest → step s = .next t →
    t.obs.out = s.obs.out ∨
    ∃ u : List Byte, t.obs.out = s.obs.out ++ u ∧ t.obs.nwrites = s.obs.nwrites + 1 ∧
      (match s.fmtCode with
        | .mulaw => u.length = 1
        | .alaw => u.length = 1
        | .pcm16le => u.length = 2
        | .frame => 1 ≤ u.length ∧ u.length ≤ 10)

/-- R47: no rule of the block reads the observation: whatever the records hold, the step has the same outcome, the same
fault, and leaves the same hardware. -/
def Obligations.ObservationNeverRead : Prop :=
  ∀ (s : State) (o : RunRecord) (p : List RunRecord),
    match step s with
    | .next t => ∃ t', step { s with obs := o, past := p } = .next t' ∧ hardware t' = hardware t
    | .fault r => step { s with obs := o, past := p } = .fault r
    | .refused r => step { s with obs := o, past := p } = .refused r

/-- R153: the encoder is asked to encode only in Streaming with the session open, and at most once in a step. -/
def Obligations.EncodesOnlyWhileOpen : Prop :=
  ∀ (i : Instr) (s t : State), BoundaryInv s → exec i s = .next t →
    encodedFrames t.obs.encLog = encodedFrames s.obs.encLog ∨
    (s.runState = .streaming ∧ s.sess = .opened ∧
      ∃ f : Frame, encodedFrames t.obs.encLog = encodedFrames s.obs.encLog ++ [f])

/-- R144: only SRCERR and CANCEL enter Error with a partial frame, and they leave it unencoded where it is. -/
def Obligations.PartialFrameLostOnlyByAbort : Prop :=
  ∀ (s t : State) (i : Instr), BoundaryInv s → s.runState ≠ .error → exec i s = .next t → t.runState = .error →
    t.fcnt ≠ 0 →
      ((∃ c, i = .srcerr c) ∨ i = .cancel) ∧ t.fcnt = s.fcnt ∧ t.fbuf = s.fbuf ∧
        encodedFrames t.obs.encLog = encodedFrames s.obs.encLog ∧ t.obs.out = s.obs.out

/-- R214: EncoderInitError is raised only by START in FRAME and before any write, so OUT is empty when it is raised; the premise
that nothing is written in Idle is kept by every step. -/
def Obligations.InitErrorBeforeAnyWrite : Prop :=
  ∀ s t : State, BoundaryInv s → idleUnwritten s → step s = .next t →
    idleUnwritten t ∧
    (t.err = .encoderInit → s.err ≠ .encoderInit →
      (∃ rest, s.hostIn = .word (encode .start) :: rest) ∧ s.runState = .idle ∧ s.fmtCode = .frame ∧
        t.obs.out = [] ∧ t.obs.nwrites = 0)

/-! ### Invariants (10_state.md R43, 42_encoder_adapter.md R161) -/

/-- The boundary invariants, the encoder-log invariant and the unwritten Idle hold at reset, for each HAS_CANCEL. -/
def Obligations.ResetMeetsInvariants : Prop :=
  ∀ hasCancel : Bool,
    let s := State.resetWith hasCancel
    BoundaryInv s ∧ EncoderLogInv s ∧ idleUnwritten s

/-- R43: every step from a state with the boundary invariants, in any state whatever of the inputs, leaves them. -/
def Obligations.StepKeepsBoundaryInv : Prop :=
  ∀ s t : State, BoundaryInv s → step s = .next t → BoundaryInv t

/-- R161, R162: every step keeps the encoder log in agreement with SESS: one Open first, no Encode after the Close, exactly one
Close, made by EOS, by error entry or by reset. -/
def Obligations.StepKeepsEncoderLog : Prop :=
  ∀ s t : State, BoundaryInv s → EncoderLogInv s → step s = .next t → EncoderLogInv t

/-! ### The companders (40_compander.md) -/

/-- R102: the segment search in closed form. -/
def Obligations.SegmentSearchClosedForm : Prop :=
  segsearch 0 = 0 ∧ segsearch 1 = 0 ∧ (∀ t : Nat, 1 ≤ t → segsearch t = min 7 (Nat.log2 t)) ∧ ∀ t : Nat, segsearch t ≤ 7

/-- The source's reference vectors and spot vectors of 95_test_vectors.md §1.1 and §2, at the boundaries. -/
def Obligations.CompanderVectors : Prop :=
  encodeMulaw (asU16 0) = 0xFF ∧ encodeMulaw (asU16 32767) = 0x80 ∧ encodeMulaw (asU16 (-32768)) = 0x00 ∧
  encodeMulaw (asU16 1000) = 0xCE ∧ encodeMulaw (asU16 (-1000)) = 0x4E ∧ encodeMulaw (asU16 123) = 0xF0 ∧
  encodeMulaw (asU16 124) = 0xEF ∧ encodeMulaw (asU16 32635) = 0x80 ∧ encodeMulaw (asU16 31611) = 0x81 ∧
  encodeAlaw (asU16 0) = 0xD5 ∧ encodeAlaw (asU16 (-1)) = 0x55 ∧ encodeAlaw (asU16 127) = 0xD2 ∧
  encodeAlaw (asU16 128) = 0xDD ∧ encodeAlaw (asU16 256) = 0xC5 ∧ encodeAlaw (asU16 1000) = 0xFA ∧
  encodeAlaw (asU16 32767) = 0xAA ∧ encodeAlaw (asU16 (-32768)) = 0x2A

/-- R105: the layout of a μ-law byte, and that all 256 occur. -/
def Obligations.MulawByteLayout : Prop :=
  (∀ x : Sample, ulawSeg x ≤ 7 ∧ ulawMant x ≤ 15 ∧
    (encodeMulaw x).getLsbD 7 = decide (0 ≤ x.toInt) ∧
    ((encodeMulaw x).extractLsb' 4 3).toNat = 7 - ulawSeg x ∧
    ((encodeMulaw x).extractLsb' 0 4).toNat = 15 - ulawMant x ∧
    (0 ≤ x.toInt → 0x80 ≤ (encodeMulaw x).toNat) ∧ (x.toInt < 0 → (encodeMulaw x).toNat ≤ 0x7F)) ∧
  ∀ r : Byte, ∃ x : Sample, encodeMulaw x = r

/-- R108: the layout of an A-law byte, and that all 256 occur. -/
def Obligations.AlawByteLayout : Prop :=
  (∀ x : Sample, alawSeg x ≤ 7 ∧ alawMant x ≤ 15 ∧
    (encodeAlaw x).getLsbD 7 = decide (0 ≤ x.toInt) ∧
    (encodeAlaw x).extractLsb' 4 3 = BitVec.ofNat 3 (alawSeg x) ^^^ 0b101#3 ∧
    (encodeAlaw x).extractLsb' 0 4 = BitVec.ofNat 4 (alawMant x) ^^^ 0b0101#4 ∧
    (0 ≤ x.toInt → 0x80 ≤ (encodeAlaw x).toNat) ∧ (x.toInt < 0 → (encodeAlaw x).toNat ≤ 0x7F)) ∧
  ∀ r : Byte, ∃ x : Sample, encodeAlaw x = r

/-- R106, R112: the magnitude range and the step size of each μ-law segment. The rows are segment, lowest magnitude, highest
magnitude, step; the mantissa counts steps of the clipped and biased magnitude from the segment's start 2^(seg+7), as R104
computes it (R106's own formula leaves the clip out, and differs above 32635). -/
def Obligations.MulawSegmentRanges : Prop :=
  ∀ x : Sample, ∀ r ∈ ([(0, 0, 123, 8), (1, 124, 379, 16), (2, 380, 891, 32), (3, 892, 1915, 64), (4, 1916, 3963, 128),
      (5, 3964, 8059, 256), (6, 8060, 16251, 512), (7, 16252, 32767, 1024)] : List (Nat × Nat × Nat × Nat)),
    (ulawSeg x = r.1 ↔ r.2.1 ≤ magnitude x ∧ magnitude x ≤ r.2.2.1) ∧
    (ulawSeg x = r.1 → ulawMant x = (min (magnitude x) 32635 + 132 - 2 ^ (r.1 + 7)) / r.2.2.2)

/-- R109, R112: the magnitude range and the step size of each A-law segment, rows as above; the mantissa counts steps from the
segment's lowest magnitude. -/
def Obligations.AlawSegmentRanges : Prop :=
  ∀ x : Sample, ∀ r ∈ ([(0, 0, 255, 16), (1, 256, 511, 16), (2, 512, 1023, 32), (3, 1024, 2047, 64), (4, 2048, 4095, 128),
      (5, 4096, 8191, 256), (6, 8192, 16383, 512), (7, 16384, 32767, 1024)] : List (Nat × Nat × Nat × Nat)),
    (alawSeg x = r.1 ↔ r.2.1 ≤ magnitude x ∧ magnitude x ≤ r.2.2.1) ∧
    (alawSeg x = r.1 → alawMant x = (magnitude x - r.2.1) / r.2.2.2)

/-- R110: polarity symmetry, the saturated pair, and the sample 0. -/
def Obligations.PolaritySymmetry : Prop :=
  (∀ x : Sample, 1 ≤ x.toInt → encodeMulaw (-x) = encodeMulaw x ^^^ 0x80 ∧ encodeAlaw (-x) = encodeAlaw x ^^^ 0x80) ∧
  encodeMulaw (asU16 (-32768)) = 0x00 ∧ encodeMulaw (asU16 (-32767)) = 0x00 ∧
  encodeAlaw (asU16 (-32768)) = 0x2A ∧ encodeAlaw (asU16 (-32767)) = 0x2A ∧
  encodeMulaw (asU16 0) = 0xFF ∧ encodeAlaw (asU16 0) = 0xD5

/-- R111: the magnitude part of each code never decreases as the magnitude grows. -/
def Obligations.CompandersMonotone : Prop :=
  ∀ x y : Sample, 0 ≤ x.toInt → x.toInt ≤ y.toInt →
    0xFF - (encodeMulaw x).toNat ≤ 0xFF - (encodeMulaw y).toNat ∧
    (encodeAlaw x ^^^ 0xD5).toNat ≤ (encodeAlaw y ^^^ 0xD5).toNat

/-! ### Runs (43_pipeline.md §6, 41_frame_buffer.md §4). The host presents every word, and in this model every call of the block
answers within its step (70_reset_and_hazards.md R255, R256; log entry 11): a run of the hardware ends on those premises only. -/

/-- R191 for MULAW, ALAW and PCM16LE: from any fresh state, the run of any sample stream completes; if it ends Done its output is
the samples' units in order, 1 or 2 bytes each, and depends on nothing else (R194); and with every write answered ok it
ends Done. That every call answers is log entry 11. -/
def Obligations.SampleStreamOutput : Prop :=
  ∀ (s : State) (f : Format) (xs : List Sample), Fresh s → f ≠ .frame →
    ∃ t, runCommands (streamCommands f xs) s = .next t ∧
      (t.runState = .done → t.obs.out = xs.flatMap (sampleUnit f) ∧
        t.obs.out.length = (if f = .pcm16le then 2 * xs.length else xs.length) ∧ t.obs.encLog = [] ∧
        t.obs.nsamp = xs.length ∧ t.obs.nwrites = xs.length) ∧
      (s.sinkIn.take xs.length = List.replicate xs.length .ok → t.runState = .done)

/-- R191 for FRAME with R139 to R142 and R145: from any fresh state, the run of any sample stream completes; if it ends Done, the
encoder was given exactly ceil(M / 80) frames, sample k being element k mod 80 of frame k div 80 and zeros following the
last sample, between one Open and one Close, and the output is exactly the units the encoder returned for those frames, in
order, each of 1 to 10 bytes. That every call answers is log entry 11. -/
def Obligations.FrameStreamAlignment : Prop :=
  ∀ (s : State) (xs : List Sample), Fresh s →
    ∃ t, runCommands (streamCommands .frame xs) s = .next t ∧
      (t.runState = .done → t.obs.nframes = (xs.length + 79) / 80 ∧
        ∃ fs : List Frame, t.obs.encLog = .open_ :: fs.map .encode ++ [.close] ∧ fs.length = (xs.length + 79) / 80 ∧
          (∀ (j : Nat) (hj : j < fs.length) (i : Nat) (hi : i < 80), (fs[j])[i] = xs.getD (80 * j + i) 0) ∧
          (∀ u ∈ encoderUnits fs (afterOpen s), 1 ≤ u.length ∧ u.length ≤ 10) ∧
          t.obs.out = (encoderUnits fs (afterOpen s)).flatten ∧
          fs.length ≤ t.obs.out.length ∧ t.obs.out.length ≤ 10 * fs.length)

/-- R191 for FRAME, the other half: with the open answered ok, one unit of 1 to 10 bytes returned for each frame and every write
answered ok, the run ends Done with exactly those units as its output. That every call answers is log entry 11. -/
def Obligations.FrameStreamCompletes : Prop :=
  ∀ (s : State) (xs : List Sample) (us : List (List Byte)), Fresh s → s.openIn.head? = some .ok →
    us.length = frameCount xs.length → s.encIn.take us.length = us → (∀ u ∈ us, 1 ≤ u.length ∧ u.length ≤ 10) →
    s.sinkIn.take us.length = List.replicate us.length .ok →
      ∃ t, runCommands (streamCommands .frame xs) s = .next t ∧ t.runState = .done ∧ t.obs.out = us.flatten ∧
        t.obs.encLog = sessionLog (streamFrames xs) true

/-- R192: for a PCM16LE run that ends Done, bytes 2k and 2k+1 of OUT read back as sample k, for every k. -/
def Obligations.PcmRoundTrip : Prop :=
  ∀ (s t : State) (xs : List Sample), Fresh s → runCommands (streamCommands .pcm16le xs) s = .next t →
    t.runState = .done → ∀ (k : Nat) (hk : k < xs.length), ∃ lo hi : Byte,
      t.obs.out[2 * k]? = some lo ∧ t.obs.out[2 * k + 1]? = some hi ∧
        ((lo.zeroExtend 16 ||| (hi.zeroExtend 16 <<< 8)) : Sample) = xs[k]

/-- R193: if the first n-1 writes of a run are answered ok and the n-th fails, then OUT is exactly the first n-1 units, the run is
in Error with SinkWriteError and the sink's cause, no write and no Encode follows, and an open session is closed exactly
once, last. First the formats that write every sample, then FRAME. That every call answers is log entry 11. -/
def Obligations.SinkFailurePropagates : Prop :=
  (∀ (s : State) (f : Format) (xs : List Sample) (n : Nat) (c : Cause), Fresh s → f ≠ .frame → n < xs.length →
    s.sinkIn.take (n + 1) = List.replicate n .ok ++ [.fail c] →
      ∃ t, runCommands (streamCommands f xs) s = .next t ∧ t.obs.out = (xs.take n).flatMap (sampleUnit f) ∧
        t.runState = .error ∧ t.err = .sinkWrite ∧ t.errinfo = c ∧ t.obs.nwrites = n + 1 ∧ t.obs.encLog = []) ∧
  (∀ (s : State) (xs : List Sample) (us : List (List Byte)) (n : Nat) (c : Cause), Fresh s →
    s.openIn.head? = some .ok → n < frameCount xs.length → us.length = n + 1 → s.encIn.take (n + 1) = us →
    (∀ u ∈ us, 1 ≤ u.length ∧ u.length ≤ 10) → s.sinkIn.take (n + 1) = List.replicate n .ok ++ [.fail c] →
      ∃ t, runCommands (streamCommands .frame xs) s = .next t ∧ t.obs.out = (us.take n).flatten ∧
        t.runState = .error ∧ t.err = .sinkWrite ∧ t.errinfo = c ∧ t.obs.nwrites = n + 1 ∧
        t.obs.encLog = sessionLog ((streamFrames xs).take (n + 1)) true)

/-- R175: a FRAME run with no samples, its open answered ok, ends Done with one Open, one Close and no output. That every call
answers is log entry 11. -/
def Obligations.EmptyFrameRun : Prop :=
  ∀ s : State, Fresh s → openAnswer s = .ok →
    ∃ t, runCommands (streamCommands .frame []) s = .next t ∧ t.runState = .done ∧
      t.obs.encLog = [.open_, .close] ∧ t.obs.out = []
end

