-- ==== Sys2Proof/Laws/State.lean ====
section
/-! SUPPORT. One lemma per field for each named update of State, true by unfolding: no later proof unfolds an update. -/

namespace Sys2Proof.Machine

/-! ### appendOut -/

@[simp] theorem appendOut_hasCancel (u : List Byte) (s : State) : (appendOut u s).hasCancel = s.hasCancel := rfl
@[simp] theorem appendOut_fmtCfgd (u : List Byte) (s : State) : (appendOut u s).fmtCfgd = s.fmtCfgd := rfl
@[simp] theorem appendOut_fmtCode (u : List Byte) (s : State) : (appendOut u s).fmtCode = s.fmtCode := rfl
@[simp] theorem appendOut_runState (u : List Byte) (s : State) : (appendOut u s).runState = s.runState := rfl
@[simp] theorem appendOut_fbuf (u : List Byte) (s : State) : (appendOut u s).fbuf = s.fbuf := rfl
@[simp] theorem appendOut_fcnt (u : List Byte) (s : State) : (appendOut u s).fcnt = s.fcnt := rfl
@[simp] theorem appendOut_err (u : List Byte) (s : State) : (appendOut u s).err = s.err := rfl
@[simp] theorem appendOut_errinfo (u : List Byte) (s : State) : (appendOut u s).errinfo = s.errinfo := rfl
@[simp] theorem appendOut_sess (u : List Byte) (s : State) : (appendOut u s).sess = s.sess := rfl
@[simp] theorem appendOut_past (u : List Byte) (s : State) : (appendOut u s).past = s.past := rfl
@[simp] theorem appendOut_hostIn (u : List Byte) (s : State) : (appendOut u s).hostIn = s.hostIn := rfl
@[simp] theorem appendOut_sinkIn (u : List Byte) (s : State) : (appendOut u s).sinkIn = s.sinkIn := rfl
@[simp] theorem appendOut_openIn (u : List Byte) (s : State) : (appendOut u s).openIn = s.openIn := rfl
@[simp] theorem appendOut_encIn (u : List Byte) (s : State) : (appendOut u s).encIn = s.encIn := rfl
@[simp] theorem appendOut_drawn (u : List Byte) (s : State) : (appendOut u s).drawn = s.drawn := rfl
@[simp] theorem appendOut_out (u : List Byte) (s : State) : (appendOut u s).obs.out = s.obs.out ++ u := rfl
@[simp] theorem appendOut_encLog (u : List Byte) (s : State) : (appendOut u s).obs.encLog = s.obs.encLog := rfl
@[simp] theorem appendOut_nsamp (u : List Byte) (s : State) : (appendOut u s).obs.nsamp = s.obs.nsamp := rfl
@[simp] theorem appendOut_nframes (u : List Byte) (s : State) : (appendOut u s).obs.nframes = s.obs.nframes := rfl
@[simp] theorem appendOut_nwrites (u : List Byte) (s : State) : (appendOut u s).obs.nwrites = s.obs.nwrites := rfl

/-! ### logCall -/

@[simp] theorem logCall_hasCancel (c : EncCall) (s : State) : (logCall c s).hasCancel = s.hasCancel := rfl
@[simp] theorem logCall_fmtCfgd (c : EncCall) (s : State) : (logCall c s).fmtCfgd = s.fmtCfgd := rfl
@[simp] theorem logCall_fmtCode (c : EncCall) (s : State) : (logCall c s).fmtCode = s.fmtCode := rfl
@[simp] theorem logCall_runState (c : EncCall) (s : State) : (logCall c s).runState = s.runState := rfl
@[simp] theorem logCall_fbuf (c : EncCall) (s : State) : (logCall c s).fbuf = s.fbuf := rfl
@[simp] theorem logCall_fcnt (c : EncCall) (s : State) : (logCall c s).fcnt = s.fcnt := rfl
@[simp] theorem logCall_err (c : EncCall) (s : State) : (logCall c s).err = s.err := rfl
@[simp] theorem logCall_errinfo (c : EncCall) (s : State) : (logCall c s).errinfo = s.errinfo := rfl
@[simp] theorem logCall_sess (c : EncCall) (s : State) : (logCall c s).sess = s.sess := rfl
@[simp] theorem logCall_past (c : EncCall) (s : State) : (logCall c s).past = s.past := rfl
@[simp] theorem logCall_hostIn (c : EncCall) (s : State) : (logCall c s).hostIn = s.hostIn := rfl
@[simp] theorem logCall_sinkIn (c : EncCall) (s : State) : (logCall c s).sinkIn = s.sinkIn := rfl
@[simp] theorem logCall_openIn (c : EncCall) (s : State) : (logCall c s).openIn = s.openIn := rfl
@[simp] theorem logCall_encIn (c : EncCall) (s : State) : (logCall c s).encIn = s.encIn := rfl
@[simp] theorem logCall_drawn (c : EncCall) (s : State) : (logCall c s).drawn = s.drawn := rfl
@[simp] theorem logCall_out (c : EncCall) (s : State) : (logCall c s).obs.out = s.obs.out := rfl
@[simp] theorem logCall_encLog (c : EncCall) (s : State) : (logCall c s).obs.encLog = s.obs.encLog ++ [c] := rfl
@[simp] theorem logCall_nsamp (c : EncCall) (s : State) : (logCall c s).obs.nsamp = s.obs.nsamp := rfl
@[simp] theorem logCall_nframes (c : EncCall) (s : State) : (logCall c s).obs.nframes = s.obs.nframes := rfl
@[simp] theorem logCall_nwrites (c : EncCall) (s : State) : (logCall c s).obs.nwrites = s.obs.nwrites := rfl

/-! ### countSample -/

@[simp] theorem countSample_hasCancel (s : State) : (countSample s).hasCancel = s.hasCancel := rfl
@[simp] theorem countSample_fmtCfgd (s : State) : (countSample s).fmtCfgd = s.fmtCfgd := rfl
@[simp] theorem countSample_fmtCode (s : State) : (countSample s).fmtCode = s.fmtCode := rfl
@[simp] theorem countSample_runState (s : State) : (countSample s).runState = s.runState := rfl
@[simp] theorem countSample_fbuf (s : State) : (countSample s).fbuf = s.fbuf := rfl
@[simp] theorem countSample_fcnt (s : State) : (countSample s).fcnt = s.fcnt := rfl
@[simp] theorem countSample_err (s : State) : (countSample s).err = s.err := rfl
@[simp] theorem countSample_errinfo (s : State) : (countSample s).errinfo = s.errinfo := rfl
@[simp] theorem countSample_sess (s : State) : (countSample s).sess = s.sess := rfl
@[simp] theorem countSample_past (s : State) : (countSample s).past = s.past := rfl
@[simp] theorem countSample_hostIn (s : State) : (countSample s).hostIn = s.hostIn := rfl
@[simp] theorem countSample_sinkIn (s : State) : (countSample s).sinkIn = s.sinkIn := rfl
@[simp] theorem countSample_openIn (s : State) : (countSample s).openIn = s.openIn := rfl
@[simp] theorem countSample_encIn (s : State) : (countSample s).encIn = s.encIn := rfl
@[simp] theorem countSample_drawn (s : State) : (countSample s).drawn = s.drawn := rfl
@[simp] theorem countSample_out (s : State) : (countSample s).obs.out = s.obs.out := rfl
@[simp] theorem countSample_encLog (s : State) : (countSample s).obs.encLog = s.obs.encLog := rfl
@[simp] theorem countSample_nsamp (s : State) : (countSample s).obs.nsamp = s.obs.nsamp + 1 := rfl
@[simp] theorem countSample_nframes (s : State) : (countSample s).obs.nframes = s.obs.nframes := rfl
@[simp] theorem countSample_nwrites (s : State) : (countSample s).obs.nwrites = s.obs.nwrites := rfl

/-! ### countFrame -/

@[simp] theorem countFrame_hasCancel (s : State) : (countFrame s).hasCancel = s.hasCancel := rfl
@[simp] theorem countFrame_fmtCfgd (s : State) : (countFrame s).fmtCfgd = s.fmtCfgd := rfl
@[simp] theorem countFrame_fmtCode (s : State) : (countFrame s).fmtCode = s.fmtCode := rfl
@[simp] theorem countFrame_runState (s : State) : (countFrame s).runState = s.runState := rfl
@[simp] theorem countFrame_fbuf (s : State) : (countFrame s).fbuf = s.fbuf := rfl
@[simp] theorem countFrame_fcnt (s : State) : (countFrame s).fcnt = s.fcnt := rfl
@[simp] theorem countFrame_err (s : State) : (countFrame s).err = s.err := rfl
@[simp] theorem countFrame_errinfo (s : State) : (countFrame s).errinfo = s.errinfo := rfl
@[simp] theorem countFrame_sess (s : State) : (countFrame s).sess = s.sess := rfl
@[simp] theorem countFrame_past (s : State) : (countFrame s).past = s.past := rfl
@[simp] theorem countFrame_hostIn (s : State) : (countFrame s).hostIn = s.hostIn := rfl
@[simp] theorem countFrame_sinkIn (s : State) : (countFrame s).sinkIn = s.sinkIn := rfl
@[simp] theorem countFrame_openIn (s : State) : (countFrame s).openIn = s.openIn := rfl
@[simp] theorem countFrame_encIn (s : State) : (countFrame s).encIn = s.encIn := rfl
@[simp] theorem countFrame_drawn (s : State) : (countFrame s).drawn = s.drawn := rfl
@[simp] theorem countFrame_out (s : State) : (countFrame s).obs.out = s.obs.out := rfl
@[simp] theorem countFrame_encLog (s : State) : (countFrame s).obs.encLog = s.obs.encLog := rfl
@[simp] theorem countFrame_nsamp (s : State) : (countFrame s).obs.nsamp = s.obs.nsamp := rfl
@[simp] theorem countFrame_nframes (s : State) : (countFrame s).obs.nframes = s.obs.nframes + 1 := rfl
@[simp] theorem countFrame_nwrites (s : State) : (countFrame s).obs.nwrites = s.obs.nwrites := rfl

/-! ### countWrite -/

@[simp] theorem countWrite_hasCancel (s : State) : (countWrite s).hasCancel = s.hasCancel := rfl
@[simp] theorem countWrite_fmtCfgd (s : State) : (countWrite s).fmtCfgd = s.fmtCfgd := rfl
@[simp] theorem countWrite_fmtCode (s : State) : (countWrite s).fmtCode = s.fmtCode := rfl
@[simp] theorem countWrite_runState (s : State) : (countWrite s).runState = s.runState := rfl
@[simp] theorem countWrite_fbuf (s : State) : (countWrite s).fbuf = s.fbuf := rfl
@[simp] theorem countWrite_fcnt (s : State) : (countWrite s).fcnt = s.fcnt := rfl
@[simp] theorem countWrite_err (s : State) : (countWrite s).err = s.err := rfl
@[simp] theorem countWrite_errinfo (s : State) : (countWrite s).errinfo = s.errinfo := rfl
@[simp] theorem countWrite_sess (s : State) : (countWrite s).sess = s.sess := rfl
@[simp] theorem countWrite_past (s : State) : (countWrite s).past = s.past := rfl
@[simp] theorem countWrite_hostIn (s : State) : (countWrite s).hostIn = s.hostIn := rfl
@[simp] theorem countWrite_sinkIn (s : State) : (countWrite s).sinkIn = s.sinkIn := rfl
@[simp] theorem countWrite_openIn (s : State) : (countWrite s).openIn = s.openIn := rfl
@[simp] theorem countWrite_encIn (s : State) : (countWrite s).encIn = s.encIn := rfl
@[simp] theorem countWrite_drawn (s : State) : (countWrite s).drawn = s.drawn := rfl
@[simp] theorem countWrite_out (s : State) : (countWrite s).obs.out = s.obs.out := rfl
@[simp] theorem countWrite_encLog (s : State) : (countWrite s).obs.encLog = s.obs.encLog := rfl
@[simp] theorem countWrite_nsamp (s : State) : (countWrite s).obs.nsamp = s.obs.nsamp := rfl
@[simp] theorem countWrite_nframes (s : State) : (countWrite s).obs.nframes = s.obs.nframes := rfl
@[simp] theorem countWrite_nwrites (s : State) : (countWrite s).obs.nwrites = s.obs.nwrites + 1 := rfl

/-! ### selectFormat -/

@[simp] theorem selectFormat_hasCancel (f : Format) (s : State) : (selectFormat f s).hasCancel = s.hasCancel := rfl
@[simp] theorem selectFormat_fmtCfgd (f : Format) (s : State) : (selectFormat f s).fmtCfgd = true := rfl
@[simp] theorem selectFormat_fmtCode (f : Format) (s : State) : (selectFormat f s).fmtCode = f := rfl
@[simp] theorem selectFormat_runState (f : Format) (s : State) : (selectFormat f s).runState = s.runState := rfl
@[simp] theorem selectFormat_fbuf (f : Format) (s : State) : (selectFormat f s).fbuf = s.fbuf := rfl
@[simp] theorem selectFormat_fcnt (f : Format) (s : State) : (selectFormat f s).fcnt = s.fcnt := rfl
@[simp] theorem selectFormat_err (f : Format) (s : State) : (selectFormat f s).err = s.err := rfl
@[simp] theorem selectFormat_errinfo (f : Format) (s : State) : (selectFormat f s).errinfo = s.errinfo := rfl
@[simp] theorem selectFormat_sess (f : Format) (s : State) : (selectFormat f s).sess = s.sess := rfl
@[simp] theorem selectFormat_past (f : Format) (s : State) : (selectFormat f s).past = s.past := rfl
@[simp] theorem selectFormat_hostIn (f : Format) (s : State) : (selectFormat f s).hostIn = s.hostIn := rfl
@[simp] theorem selectFormat_sinkIn (f : Format) (s : State) : (selectFormat f s).sinkIn = s.sinkIn := rfl
@[simp] theorem selectFormat_openIn (f : Format) (s : State) : (selectFormat f s).openIn = s.openIn := rfl
@[simp] theorem selectFormat_encIn (f : Format) (s : State) : (selectFormat f s).encIn = s.encIn := rfl
@[simp] theorem selectFormat_drawn (f : Format) (s : State) : (selectFormat f s).drawn = s.drawn := rfl
@[simp] theorem selectFormat_obs (f : Format) (s : State) : (selectFormat f s).obs = s.obs := rfl

/-! ### setRun -/

@[simp] theorem setRun_hasCancel (r : RunState) (s : State) : (setRun r s).hasCancel = s.hasCancel := rfl
@[simp] theorem setRun_fmtCfgd (r : RunState) (s : State) : (setRun r s).fmtCfgd = s.fmtCfgd := rfl
@[simp] theorem setRun_fmtCode (r : RunState) (s : State) : (setRun r s).fmtCode = s.fmtCode := rfl
@[simp] theorem setRun_runState (r : RunState) (s : State) : (setRun r s).runState = r := rfl
@[simp] theorem setRun_fbuf (r : RunState) (s : State) : (setRun r s).fbuf = s.fbuf := rfl
@[simp] theorem setRun_fcnt (r : RunState) (s : State) : (setRun r s).fcnt = s.fcnt := rfl
@[simp] theorem setRun_err (r : RunState) (s : State) : (setRun r s).err = s.err := rfl
@[simp] theorem setRun_errinfo (r : RunState) (s : State) : (setRun r s).errinfo = s.errinfo := rfl
@[simp] theorem setRun_sess (r : RunState) (s : State) : (setRun r s).sess = s.sess := rfl
@[simp] theorem setRun_past (r : RunState) (s : State) : (setRun r s).past = s.past := rfl
@[simp] theorem setRun_hostIn (r : RunState) (s : State) : (setRun r s).hostIn = s.hostIn := rfl
@[simp] theorem setRun_sinkIn (r : RunState) (s : State) : (setRun r s).sinkIn = s.sinkIn := rfl
@[simp] theorem setRun_openIn (r : RunState) (s : State) : (setRun r s).openIn = s.openIn := rfl
@[simp] theorem setRun_encIn (r : RunState) (s : State) : (setRun r s).encIn = s.encIn := rfl
@[simp] theorem setRun_drawn (r : RunState) (s : State) : (setRun r s).drawn = s.drawn := rfl
@[simp] theorem setRun_obs (r : RunState) (s : State) : (setRun r s).obs = s.obs := rfl

/-! ### setSess -/

@[simp] theorem setSess_hasCancel (k : Session) (s : State) : (setSess k s).hasCancel = s.hasCancel := rfl
@[simp] theorem setSess_fmtCfgd (k : Session) (s : State) : (setSess k s).fmtCfgd = s.fmtCfgd := rfl
@[simp] theorem setSess_fmtCode (k : Session) (s : State) : (setSess k s).fmtCode = s.fmtCode := rfl
@[simp] theorem setSess_runState (k : Session) (s : State) : (setSess k s).runState = s.runState := rfl
@[simp] theorem setSess_fbuf (k : Session) (s : State) : (setSess k s).fbuf = s.fbuf := rfl
@[simp] theorem setSess_fcnt (k : Session) (s : State) : (setSess k s).fcnt = s.fcnt := rfl
@[simp] theorem setSess_err (k : Session) (s : State) : (setSess k s).err = s.err := rfl
@[simp] theorem setSess_errinfo (k : Session) (s : State) : (setSess k s).errinfo = s.errinfo := rfl
@[simp] theorem setSess_sess (k : Session) (s : State) : (setSess k s).sess = k := rfl
@[simp] theorem setSess_past (k : Session) (s : State) : (setSess k s).past = s.past := rfl
@[simp] theorem setSess_hostIn (k : Session) (s : State) : (setSess k s).hostIn = s.hostIn := rfl
@[simp] theorem setSess_sinkIn (k : Session) (s : State) : (setSess k s).sinkIn = s.sinkIn := rfl
@[simp] theorem setSess_openIn (k : Session) (s : State) : (setSess k s).openIn = s.openIn := rfl
@[simp] theorem setSess_encIn (k : Session) (s : State) : (setSess k s).encIn = s.encIn := rfl
@[simp] theorem setSess_drawn (k : Session) (s : State) : (setSess k s).drawn = s.drawn := rfl
@[simp] theorem setSess_obs (k : Session) (s : State) : (setSess k s).obs = s.obs := rfl

/-! ### clearCount -/

@[simp] theorem clearCount_hasCancel (s : State) : (clearCount s).hasCancel = s.hasCancel := rfl
@[simp] theorem clearCount_fmtCfgd (s : State) : (clearCount s).fmtCfgd = s.fmtCfgd := rfl
@[simp] theorem clearCount_fmtCode (s : State) : (clearCount s).fmtCode = s.fmtCode := rfl
@[simp] theorem clearCount_runState (s : State) : (clearCount s).runState = s.runState := rfl
@[simp] theorem clearCount_fbuf (s : State) : (clearCount s).fbuf = s.fbuf := rfl
@[simp] theorem clearCount_fcnt (s : State) : (clearCount s).fcnt = 0 := rfl
@[simp] theorem clearCount_err (s : State) : (clearCount s).err = s.err := rfl
@[simp] theorem clearCount_errinfo (s : State) : (clearCount s).errinfo = s.errinfo := rfl
@[simp] theorem clearCount_sess (s : State) : (clearCount s).sess = s.sess := rfl
@[simp] theorem clearCount_past (s : State) : (clearCount s).past = s.past := rfl
@[simp] theorem clearCount_hostIn (s : State) : (clearCount s).hostIn = s.hostIn := rfl
@[simp] theorem clearCount_sinkIn (s : State) : (clearCount s).sinkIn = s.sinkIn := rfl
@[simp] theorem clearCount_openIn (s : State) : (clearCount s).openIn = s.openIn := rfl
@[simp] theorem clearCount_encIn (s : State) : (clearCount s).encIn = s.encIn := rfl
@[simp] theorem clearCount_drawn (s : State) : (clearCount s).drawn = s.drawn := rfl
@[simp] theorem clearCount_obs (s : State) : (clearCount s).obs = s.obs := rfl

/-! ### recordError -/

@[simp] theorem recordError_hasCancel (k : ErrKind) (c : Cause) (s : State) : (recordError k c s).hasCancel = s.hasCancel := rfl
@[simp] theorem recordError_fmtCfgd (k : ErrKind) (c : Cause) (s : State) : (recordError k c s).fmtCfgd = s.fmtCfgd := rfl
@[simp] theorem recordError_fmtCode (k : ErrKind) (c : Cause) (s : State) : (recordError k c s).fmtCode = s.fmtCode := rfl
@[simp] theorem recordError_runState (k : ErrKind) (c : Cause) (s : State) : (recordError k c s).runState = .error := rfl
@[simp] theorem recordError_fbuf (k : ErrKind) (c : Cause) (s : State) : (recordError k c s).fbuf = s.fbuf := rfl
@[simp] theorem recordError_fcnt (k : ErrKind) (c : Cause) (s : State) : (recordError k c s).fcnt = s.fcnt := rfl
@[simp] theorem recordError_err (k : ErrKind) (c : Cause) (s : State) : (recordError k c s).err = k := rfl
@[simp] theorem recordError_errinfo (k : ErrKind) (c : Cause) (s : State) : (recordError k c s).errinfo = c := rfl
@[simp] theorem recordError_sess (k : ErrKind) (c : Cause) (s : State) : (recordError k c s).sess = s.sess := rfl
@[simp] theorem recordError_past (k : ErrKind) (c : Cause) (s : State) : (recordError k c s).past = s.past := rfl
@[simp] theorem recordError_hostIn (k : ErrKind) (c : Cause) (s : State) : (recordError k c s).hostIn = s.hostIn := rfl
@[simp] theorem recordError_sinkIn (k : ErrKind) (c : Cause) (s : State) : (recordError k c s).sinkIn = s.sinkIn := rfl
@[simp] theorem recordError_openIn (k : ErrKind) (c : Cause) (s : State) : (recordError k c s).openIn = s.openIn := rfl
@[simp] theorem recordError_encIn (k : ErrKind) (c : Cause) (s : State) : (recordError k c s).encIn = s.encIn := rfl
@[simp] theorem recordError_drawn (k : ErrKind) (c : Cause) (s : State) : (recordError k c s).drawn = s.drawn := rfl
@[simp] theorem recordError_obs (k : ErrKind) (c : Cause) (s : State) : (recordError k c s).obs = s.obs := rfl

/-! ### padBuffer -/

@[simp] theorem padBuffer_hasCancel (s : State) : (padBuffer s).hasCancel = s.hasCancel := by simp only [padBuffer]
@[simp] theorem padBuffer_fmtCfgd (s : State) : (padBuffer s).fmtCfgd = s.fmtCfgd := by simp only [padBuffer]
@[simp] theorem padBuffer_fmtCode (s : State) : (padBuffer s).fmtCode = s.fmtCode := by simp only [padBuffer]
@[simp] theorem padBuffer_runState (s : State) : (padBuffer s).runState = s.runState := by simp only [padBuffer]
@[simp] theorem padBuffer_fbuf (s : State) : (padBuffer s).fbuf = padFrom s.fcnt.toNat s.fbuf := by simp only [padBuffer]
@[simp] theorem padBuffer_fcnt (s : State) : (padBuffer s).fcnt = 80#7 := by
  simp only [padBuffer, fullCount, Config.N]
@[simp] theorem padBuffer_err (s : State) : (padBuffer s).err = s.err := by simp only [padBuffer]
@[simp] theorem padBuffer_errinfo (s : State) : (padBuffer s).errinfo = s.errinfo := by simp only [padBuffer]
@[simp] theorem padBuffer_sess (s : State) : (padBuffer s).sess = s.sess := by simp only [padBuffer]
@[simp] theorem padBuffer_past (s : State) : (padBuffer s).past = s.past := by simp only [padBuffer]
@[simp] theorem padBuffer_hostIn (s : State) : (padBuffer s).hostIn = s.hostIn := by simp only [padBuffer]
@[simp] theorem padBuffer_sinkIn (s : State) : (padBuffer s).sinkIn = s.sinkIn := by simp only [padBuffer]
@[simp] theorem padBuffer_openIn (s : State) : (padBuffer s).openIn = s.openIn := by simp only [padBuffer]
@[simp] theorem padBuffer_encIn (s : State) : (padBuffer s).encIn = s.encIn := by simp only [padBuffer]
@[simp] theorem padBuffer_drawn (s : State) : (padBuffer s).drawn = s.drawn := by simp only [padBuffer]
@[simp] theorem padBuffer_obs (s : State) : (padBuffer s).obs = s.obs := by simp only [padBuffer]

/-! ### fbStore -/

@[simp] theorem fbStore_hasCancel (x : Sample) (s : State) : (fbStore x s).hasCancel = s.hasCancel := rfl
@[simp] theorem fbStore_fmtCfgd (x : Sample) (s : State) : (fbStore x s).fmtCfgd = s.fmtCfgd := rfl
@[simp] theorem fbStore_fmtCode (x : Sample) (s : State) : (fbStore x s).fmtCode = s.fmtCode := rfl
@[simp] theorem fbStore_runState (x : Sample) (s : State) : (fbStore x s).runState = s.runState := rfl
@[simp] theorem fbStore_fbuf (x : Sample) (s : State) : (fbStore x s).fbuf = s.fbuf.setIfInBounds s.fcnt.toNat x := rfl
@[simp] theorem fbStore_fcnt (x : Sample) (s : State) : (fbStore x s).fcnt = s.fcnt + 1 := rfl
@[simp] theorem fbStore_err (x : Sample) (s : State) : (fbStore x s).err = s.err := rfl
@[simp] theorem fbStore_errinfo (x : Sample) (s : State) : (fbStore x s).errinfo = s.errinfo := rfl
@[simp] theorem fbStore_sess (x : Sample) (s : State) : (fbStore x s).sess = s.sess := rfl
@[simp] theorem fbStore_past (x : Sample) (s : State) : (fbStore x s).past = s.past := rfl
@[simp] theorem fbStore_hostIn (x : Sample) (s : State) : (fbStore x s).hostIn = s.hostIn := rfl
@[simp] theorem fbStore_sinkIn (x : Sample) (s : State) : (fbStore x s).sinkIn = s.sinkIn := rfl
@[simp] theorem fbStore_openIn (x : Sample) (s : State) : (fbStore x s).openIn = s.openIn := rfl
@[simp] theorem fbStore_encIn (x : Sample) (s : State) : (fbStore x s).encIn = s.encIn := rfl
@[simp] theorem fbStore_drawn (x : Sample) (s : State) : (fbStore x s).drawn = s.drawn := rfl
@[simp] theorem fbStore_obs (x : Sample) (s : State) : (fbStore x s).obs = s.obs := rfl

/-! ### afterSink -/

@[simp] theorem afterSink_hasCancel (s : State) : (afterSink s).hasCancel = s.hasCancel := by
  unfold afterSink
  split <;> rfl
@[simp] theorem afterSink_fmtCfgd (s : State) : (afterSink s).fmtCfgd = s.fmtCfgd := by
  unfold afterSink
  split <;> rfl
@[simp] theorem afterSink_fmtCode (s : State) : (afterSink s).fmtCode = s.fmtCode := by
  unfold afterSink
  split <;> rfl
@[simp] theorem afterSink_runState (s : State) : (afterSink s).runState = s.runState := by
  unfold afterSink
  split <;> rfl
@[simp] theorem afterSink_fbuf (s : State) : (afterSink s).fbuf = s.fbuf := by
  unfold afterSink
  split <;> rfl
@[simp] theorem afterSink_fcnt (s : State) : (afterSink s).fcnt = s.fcnt := by
  unfold afterSink
  split <;> rfl
@[simp] theorem afterSink_err (s : State) : (afterSink s).err = s.err := by
  unfold afterSink
  split <;> rfl
@[simp] theorem afterSink_errinfo (s : State) : (afterSink s).errinfo = s.errinfo := by
  unfold afterSink
  split <;> rfl
@[simp] theorem afterSink_sess (s : State) : (afterSink s).sess = s.sess := by
  unfold afterSink
  split <;> rfl
@[simp] theorem afterSink_past (s : State) : (afterSink s).past = s.past := by
  unfold afterSink
  split <;> rfl
@[simp] theorem afterSink_hostIn (s : State) : (afterSink s).hostIn = s.hostIn := by
  unfold afterSink
  split <;> rfl
@[simp] theorem afterSink_openIn (s : State) : (afterSink s).openIn = s.openIn := by
  unfold afterSink
  split <;> rfl
@[simp] theorem afterSink_encIn (s : State) : (afterSink s).encIn = s.encIn := by
  unfold afterSink
  split <;> rfl
@[simp] theorem afterSink_obs (s : State) : (afterSink s).obs = s.obs := by
  unfold afterSink
  split <;> rfl
@[simp] theorem afterSink_sinkIn (s : State) : (afterSink s).sinkIn = s.sinkIn.tail := by
  unfold afterSink
  split <;> rename_i h <;> simp [h]

/-! ### afterOpen -/

@[simp] theorem afterOpen_hasCancel (s : State) : (afterOpen s).hasCancel = s.hasCancel := by
  unfold afterOpen
  split <;> rfl
@[simp] theorem afterOpen_fmtCfgd (s : State) : (afterOpen s).fmtCfgd = s.fmtCfgd := by
  unfold afterOpen
  split <;> rfl
@[simp] theorem afterOpen_fmtCode (s : State) : (afterOpen s).fmtCode = s.fmtCode := by
  unfold afterOpen
  split <;> rfl
@[simp] theorem afterOpen_runState (s : State) : (afterOpen s).runState = s.runState := by
  unfold afterOpen
  split <;> rfl
@[simp] theorem afterOpen_fbuf (s : State) : (afterOpen s).fbuf = s.fbuf := by
  unfold afterOpen
  split <;> rfl
@[simp] theorem afterOpen_fcnt (s : State) : (afterOpen s).fcnt = s.fcnt := by
  unfold afterOpen
  split <;> rfl
@[simp] theorem afterOpen_err (s : State) : (afterOpen s).err = s.err := by
  unfold afterOpen
  split <;> rfl
@[simp] theorem afterOpen_errinfo (s : State) : (afterOpen s).errinfo = s.errinfo := by
  unfold afterOpen
  split <;> rfl
@[simp] theorem afterOpen_sess (s : State) : (afterOpen s).sess = s.sess := by
  unfold afterOpen
  split <;> rfl
@[simp] theorem afterOpen_past (s : State) : (afterOpen s).past = s.past := by
  unfold afterOpen
  split <;> rfl
@[simp] theorem afterOpen_hostIn (s : State) : (afterOpen s).hostIn = s.hostIn := by
  unfold afterOpen
  split <;> rfl
@[simp] theorem afterOpen_sinkIn (s : State) : (afterOpen s).sinkIn = s.sinkIn := by
  unfold afterOpen
  split <;> rfl
@[simp] theorem afterOpen_encIn (s : State) : (afterOpen s).encIn = s.encIn := by
  unfold afterOpen
  split <;> rfl
@[simp] theorem afterOpen_obs (s : State) : (afterOpen s).obs = s.obs := by
  unfold afterOpen
  split <;> rfl
@[simp] theorem afterOpen_openIn (s : State) : (afterOpen s).openIn = s.openIn.tail := by
  unfold afterOpen
  split <;> rename_i h <;> simp [h]

/-! ### afterUnit -/

@[simp] theorem afterUnit_hasCancel (s : State) : (afterUnit s).hasCancel = s.hasCancel := by
  unfold afterUnit
  split <;> rfl
@[simp] theorem afterUnit_fmtCfgd (s : State) : (afterUnit s).fmtCfgd = s.fmtCfgd := by
  unfold afterUnit
  split <;> rfl
@[simp] theorem afterUnit_fmtCode (s : State) : (afterUnit s).fmtCode = s.fmtCode := by
  unfold afterUnit
  split <;> rfl
@[simp] theorem afterUnit_runState (s : State) : (afterUnit s).runState = s.runState := by
  unfold afterUnit
  split <;> rfl
@[simp] theorem afterUnit_fbuf (s : State) : (afterUnit s).fbuf = s.fbuf := by
  unfold afterUnit
  split <;> rfl
@[simp] theorem afterUnit_fcnt (s : State) : (afterUnit s).fcnt = s.fcnt := by
  unfold afterUnit
  split <;> rfl
@[simp] theorem afterUnit_err (s : State) : (afterUnit s).err = s.err := by
  unfold afterUnit
  split <;> rfl
@[simp] theorem afterUnit_errinfo (s : State) : (afterUnit s).errinfo = s.errinfo := by
  unfold afterUnit
  split <;> rfl
@[simp] theorem afterUnit_sess (s : State) : (afterUnit s).sess = s.sess := by
  unfold afterUnit
  split <;> rfl
@[simp] theorem afterUnit_past (s : State) : (afterUnit s).past = s.past := by
  unfold afterUnit
  split <;> rfl
@[simp] theorem afterUnit_hostIn (s : State) : (afterUnit s).hostIn = s.hostIn := by
  unfold afterUnit
  split <;> rfl
@[simp] theorem afterUnit_sinkIn (s : State) : (afterUnit s).sinkIn = s.sinkIn := by
  unfold afterUnit
  split <;> rfl
@[simp] theorem afterUnit_openIn (s : State) : (afterUnit s).openIn = s.openIn := by
  unfold afterUnit
  split <;> rfl
@[simp] theorem afterUnit_obs (s : State) : (afterUnit s).obs = s.obs := by
  unfold afterUnit
  split <;> rfl
@[simp] theorem afterUnit_encIn (s : State) : (afterUnit s).encIn = s.encIn.tail := by
  unfold afterUnit
  split <;> rename_i h <;> simp [h]

/-! ### sessionRelease and enterError -/

@[simp] theorem sessionRelease_hasCancel (s : State) : (sessionRelease s).hasCancel = s.hasCancel := by
  unfold sessionRelease
  split <;> rfl
@[simp] theorem sessionRelease_fmtCfgd (s : State) : (sessionRelease s).fmtCfgd = s.fmtCfgd := by
  unfold sessionRelease
  split <;> rfl
@[simp] theorem sessionRelease_fmtCode (s : State) : (sessionRelease s).fmtCode = s.fmtCode := by
  unfold sessionRelease
  split <;> rfl
@[simp] theorem sessionRelease_runState (s : State) : (sessionRelease s).runState = s.runState := by
  unfold sessionRelease
  split <;> rfl
@[simp] theorem sessionRelease_fbuf (s : State) : (sessionRelease s).fbuf = s.fbuf := by
  unfold sessionRelease
  split <;> rfl
@[simp] theorem sessionRelease_fcnt (s : State) : (sessionRelease s).fcnt = s.fcnt := by
  unfold sessionRelease
  split <;> rfl
@[simp] theorem sessionRelease_err (s : State) : (sessionRelease s).err = s.err := by
  unfold sessionRelease
  split <;> rfl
@[simp] theorem sessionRelease_errinfo (s : State) : (sessionRelease s).errinfo = s.errinfo := by
  unfold sessionRelease
  split <;> rfl
@[simp] theorem sessionRelease_past (s : State) : (sessionRelease s).past = s.past := by
  unfold sessionRelease
  split <;> rfl
@[simp] theorem sessionRelease_hostIn (s : State) : (sessionRelease s).hostIn = s.hostIn := by
  unfold sessionRelease
  split <;> rfl
@[simp] theorem sessionRelease_sinkIn (s : State) : (sessionRelease s).sinkIn = s.sinkIn := by
  unfold sessionRelease
  split <;> rfl
@[simp] theorem sessionRelease_openIn (s : State) : (sessionRelease s).openIn = s.openIn := by
  unfold sessionRelease
  split <;> rfl
@[simp] theorem sessionRelease_encIn (s : State) : (sessionRelease s).encIn = s.encIn := by
  unfold sessionRelease
  split <;> rfl
@[simp] theorem sessionRelease_drawn (s : State) : (sessionRelease s).drawn = s.drawn := by
  unfold sessionRelease
  split <;> rfl
@[simp] theorem sessionRelease_out (s : State) : (sessionRelease s).obs.out = s.obs.out := by
  unfold sessionRelease
  split <;> rfl
@[simp] theorem sessionRelease_nsamp (s : State) : (sessionRelease s).obs.nsamp = s.obs.nsamp := by
  unfold sessionRelease
  split <;> rfl
@[simp] theorem sessionRelease_nframes (s : State) : (sessionRelease s).obs.nframes = s.obs.nframes := by
  unfold sessionRelease
  split <;> rfl
@[simp] theorem sessionRelease_nwrites (s : State) : (sessionRelease s).obs.nwrites = s.obs.nwrites := by
  unfold sessionRelease
  split <;> rfl
@[simp] theorem enterError_hasCancel (k : ErrKind) (c : Cause) (s : State) : (enterError k c s).hasCancel = s.hasCancel := by
  simp [enterError]
@[simp] theorem enterError_fmtCfgd (k : ErrKind) (c : Cause) (s : State) : (enterError k c s).fmtCfgd = s.fmtCfgd := by
  simp [enterError]
@[simp] theorem enterError_fmtCode (k : ErrKind) (c : Cause) (s : State) : (enterError k c s).fmtCode = s.fmtCode := by
  simp [enterError]
@[simp] theorem enterError_runState (k : ErrKind) (c : Cause) (s : State) : (enterError k c s).runState = .error := by
  simp [enterError]
@[simp] theorem enterError_fbuf (k : ErrKind) (c : Cause) (s : State) : (enterError k c s).fbuf = s.fbuf := by
  simp [enterError]
@[simp] theorem enterError_fcnt (k : ErrKind) (c : Cause) (s : State) : (enterError k c s).fcnt = s.fcnt := by
  simp [enterError]
@[simp] theorem enterError_err (k : ErrKind) (c : Cause) (s : State) : (enterError k c s).err = k := by
  simp [enterError]
@[simp] theorem enterError_errinfo (k : ErrKind) (c : Cause) (s : State) : (enterError k c s).errinfo = c := by
  simp [enterError]
@[simp] theorem enterError_past (k : ErrKind) (c : Cause) (s : State) : (enterError k c s).past = s.past := by
  simp [enterError]
@[simp] theorem enterError_hostIn (k : ErrKind) (c : Cause) (s : State) : (enterError k c s).hostIn = s.hostIn := by
  simp [enterError]
@[simp] theorem enterError_sinkIn (k : ErrKind) (c : Cause) (s : State) : (enterError k c s).sinkIn = s.sinkIn := by
  simp [enterError]
@[simp] theorem enterError_openIn (k : ErrKind) (c : Cause) (s : State) : (enterError k c s).openIn = s.openIn := by
  simp [enterError]
@[simp] theorem enterError_encIn (k : ErrKind) (c : Cause) (s : State) : (enterError k c s).encIn = s.encIn := by
  simp [enterError]
@[simp] theorem enterError_drawn (k : ErrKind) (c : Cause) (s : State) : (enterError k c s).drawn = s.drawn := by
  simp [enterError]
@[simp] theorem enterError_out (k : ErrKind) (c : Cause) (s : State) : (enterError k c s).obs.out = s.obs.out := by
  simp [enterError]
@[simp] theorem enterError_nsamp (k : ErrKind) (c : Cause) (s : State) : (enterError k c s).obs.nsamp = s.obs.nsamp := by
  simp [enterError]
@[simp] theorem enterError_nframes (k : ErrKind) (c : Cause) (s : State) : (enterError k c s).obs.nframes = s.obs.nframes := by
  simp [enterError]
@[simp] theorem enterError_nwrites (k : ErrKind) (c : Cause) (s : State) : (enterError k c s).obs.nwrites = s.obs.nwrites := by
  simp [enterError]

end Sys2Proof.Machine
end

