-- ==== Sys2Proof/Laws/Ops.lean ====
section
/-! SUPPORT. For each shared operation, once, everything it can do: the draws, the release, the error entry, the sink write, the
open, the frame cycle, the frame buffer, the guard, the fetch and the step. Proofs cite these and leave the operations folded. -/

namespace Sys2Proof.Machine

/-! ### The agents' answers -/

theorem sinkAnswer_listed {s : State} {a : Answer} {rest : List Answer} (h : s.sinkIn = a :: rest) (u : List Byte) :
    sinkAnswer s u = a := by simp [sinkAnswer, h]

theorem afterSink_listed {s : State} {a : Answer} {rest : List Answer} (h : s.sinkIn = a :: rest) :
    afterSink s = { s with sinkIn := rest } := by simp [afterSink, h]

theorem openAnswer_listed {s : State} {a : Answer} {rest : List Answer} (h : s.openIn = a :: rest) :
    openAnswer s = a := by simp [openAnswer, h]

theorem afterOpen_listed {s : State} {a : Answer} {rest : List Answer} (h : s.openIn = a :: rest) :
    afterOpen s = { s with openIn := rest } := by simp [afterOpen, h]

theorem unitAnswer_listed {s : State} {u : List Byte} {rest : List (List Byte)} (h : s.encIn = u :: rest) (f : Frame) :
    unitAnswer s f = u := by simp [unitAnswer, h]

theorem afterUnit_listed {s : State} {u : List Byte} {rest : List (List Byte)} (h : s.encIn = u :: rest) :
    afterUnit s = { s with encIn := rest } := by simp [afterUnit, h]

/-- An answer of the sink depends on what is listed and on the number of draws, on nothing else of the state. -/
theorem sinkAnswer_congr {s t : State} (h : t.sinkIn = s.sinkIn) (d : t.drawn = s.drawn) (u : List Byte) :
    sinkAnswer t u = sinkAnswer s u := by simp [sinkAnswer, h, d]

theorem openAnswer_congr {s t : State} (h : t.openIn = s.openIn) (d : t.drawn = s.drawn) :
    openAnswer t = openAnswer s := by simp [openAnswer, h, d]

theorem unitAnswer_congr {s t : State} (h : t.encIn = s.encIn) (d : t.drawn = s.drawn) (f : Frame) :
    unitAnswer t f = unitAnswer s f := by simp [unitAnswer, h, d]

/-! ### Session release and error entry -/

theorem sessionRelease_opened {s : State} (h : s.sess = .opened) :
    sessionRelease s = setSess .closed (logCall .close s) := by simp [sessionRelease, h]

theorem sessionRelease_not_opened {s : State} (h : s.sess ≠ .opened) : sessionRelease s = s := by
  unfold sessionRelease
  split <;> simp_all

@[simp] theorem sessionRelease_sess (s : State) :
    (sessionRelease s).sess = if s.sess = .opened then .closed else s.sess := by
  unfold sessionRelease
  split <;> simp_all

@[simp] theorem sessionRelease_encLog (s : State) :
    (sessionRelease s).obs.encLog = if s.sess = .opened then s.obs.encLog ++ [.close] else s.obs.encLog := by
  unfold sessionRelease
  split <;> simp_all

/-- Releasing twice is releasing once. -/
theorem sessionRelease_idem (s : State) : sessionRelease (sessionRelease s) = sessionRelease s := by
  apply sessionRelease_not_opened
  simp only [sessionRelease_sess]
  split <;> simp_all

theorem enterError_opened {s : State} (h : s.sess = .opened) (k : ErrKind) (c : Cause) :
    enterError k c s =
      { logCall .close s with err := k, errinfo := c, runState := .error, sess := .closed } := by
  rw [enterError, sessionRelease_opened (by simpa using h)]
  rfl

theorem enterError_not_opened {s : State} (h : s.sess ≠ .opened) (k : ErrKind) (c : Cause) :
    enterError k c s = { s with err := k, errinfo := c, runState := .error } :=
  sessionRelease_not_opened (s := recordError k c s) h

@[simp] theorem enterError_sess (k : ErrKind) (c : Cause) (s : State) :
    (enterError k c s).sess = if s.sess = .opened then .closed else s.sess := by
  rw [enterError, sessionRelease_sess]
  rfl

@[simp] theorem enterError_encLog (k : ErrKind) (c : Cause) (s : State) :
    (enterError k c s).obs.encLog = if s.sess = .opened then s.obs.encLog ++ [.close] else s.obs.encLog := by
  rw [enterError, sessionRelease_encLog]
  rfl

theorem enterError_sess_ne_opened (k : ErrKind) (c : Cause) (s : State) : (enterError k c s).sess ≠ .opened := by
  rw [enterError_sess]
  split <;> simp_all

/-! ### The sink write, the open and the frame cycle -/

/-- A sink write appends the whole unit, or enters Error with the sink's cause. -/
theorem emitUnit_cases (u : List Byte) (s : State) :
    (sinkAnswer s u = .ok ∧ emitUnit u s = appendOut u (afterSink (countWrite s))) ∨
      ∃ c, sinkAnswer s u = .fail c ∧ emitUnit u s = enterError .sinkWrite c (afterSink (countWrite s)) := by
  cases h : sinkAnswer s u with
  | ok => exact .inl ⟨rfl, by simp [emitUnit, finishWrite, h]⟩
  | fail c => exact .inr ⟨c, rfl, by simp [emitUnit, finishWrite, h]⟩

/-- An open gives an open session, or enters Error with the encoder's cause. -/
theorem encOpen_cases (s : State) :
    (openAnswer s = .ok ∧ encOpen s = setSess .opened (afterOpen (logCall .open_ s))) ∨
      ∃ c, openAnswer s = .fail c ∧ encOpen s = enterError .encoderInit c (afterOpen (logCall .open_ s)) := by
  cases h : openAnswer s with
  | ok => exact .inl ⟨rfl, by simp [encOpen, finishOpen, h]⟩
  | fail c => exact .inr ⟨c, rfl, by simp [encOpen, finishOpen, h]⟩

/-- A frame cycle writes a unit of legal length, or enters Error with the length as its cause. -/
theorem frameCycle_cases (f : Frame) (s : State) :
    (unitLengthOk (unitAnswer s f) = true ∧
        frameCycle f s = emitUnit (unitAnswer s f) (afterUnit (countFrame (logCall (.encode f) s)))) ∨
      (unitLengthOk (unitAnswer s f) = false ∧
        frameCycle f s =
          enterError .encoderInvariant (lengthCause (unitAnswer s f)) (afterUnit (countFrame (logCall (.encode f) s)))) := by
  cases h : unitLengthOk (unitAnswer s f) with
  | true => exact .inl ⟨rfl, by simp [frameCycle, finishCycle, h]⟩
  | false => exact .inr ⟨rfl, by simp [frameCycle, finishCycle, h]⟩

theorem unitLengthOk_iff (u : List Byte) : unitLengthOk u = true ↔ 1 ≤ u.length ∧ u.length ≤ 10 := by
  rw [unitLengthOk, Bool.and_eq_true]
  exact and_congr decide_eq_true_iff decide_eq_true_iff

/-- A frame cycle whose unit has a legal length and is accepted: one Encode, one write, the unit appended. -/
theorem frameCycle_written {f : Frame} {s : State} (hmin : 1 ≤ (unitAnswer s f).length)
    (hmax : (unitAnswer s f).length ≤ 10) (hw : sinkAnswer (afterUnit s) (unitAnswer s f) = .ok) :
    frameCycle f s = { afterSink (afterUnit s) with
      obs := { s.obs with out := s.obs.out ++ unitAnswer s f, encLog := s.obs.encLog ++ [.encode f],
                          nframes := s.obs.nframes + 1, nwrites := s.obs.nwrites + 1 } } := by
  rcases frameCycle_cases f s with ⟨_, hc⟩ | ⟨hbad, _⟩
  · have hw' : sinkAnswer (afterUnit (countFrame (logCall (.encode f) s))) (unitAnswer s f) = .ok := by
      rw [← hw]
      cases he : s.encIn <;> simp [afterUnit, he, sinkAnswer]
    rw [hc, emitUnit, hw']
    cases he : s.encIn <;> cases hk : s.sinkIn <;>
      simp [finishWrite, afterUnit, afterSink, he, hk, appendOut, countWrite, countFrame, logCall]
  · simp [(unitLengthOk_iff _).2 ⟨hmin, hmax⟩] at hbad

/-- A frame cycle whose unit has an illegal length: one Encode, no write, EncoderInvariantError, the session closed. -/
theorem frameCycle_bad_length {f : Frame} {s : State} (hlen : (unitAnswer s f).length = 0 ∨ 10 < (unitAnswer s f).length)
    (hs : s.sess = .opened) :
    frameCycle f s = { afterUnit s with
      err := .encoderInvariant, errinfo := BitVec.ofNat 16 (min (unitAnswer s f).length 0xFFFF),
      runState := .error, sess := .closed,
      obs := { s.obs with encLog := s.obs.encLog ++ [.encode f, .close], nframes := s.obs.nframes + 1 } } := by
  rcases frameCycle_cases f s with ⟨hgood, _⟩ | ⟨_, hc⟩
  · have := (unitLengthOk_iff _).1 hgood
    omega
  · rw [hc, enterError_opened (by simp [hs])]
    cases he : s.encIn <;> simp [afterUnit, he, countFrame, logCall, lengthCause]

/-- A frame cycle whose write is refused: one Encode, one failed write, SinkWriteError, the session closed. -/
theorem frameCycle_refused {f : Frame} {s : State} {c : Cause} (hmin : 1 ≤ (unitAnswer s f).length)
    (hmax : (unitAnswer s f).length ≤ 10) (hw : sinkAnswer (afterUnit s) (unitAnswer s f) = .fail c)
    (hs : s.sess = .opened) :
    frameCycle f s = { afterSink (afterUnit s) with
      err := .sinkWrite, errinfo := c, runState := .error, sess := .closed,
      obs := { s.obs with encLog := s.obs.encLog ++ [.encode f, .close], nframes := s.obs.nframes + 1,
                          nwrites := s.obs.nwrites + 1 } } := by
  rcases frameCycle_cases f s with ⟨_, hc⟩ | ⟨hbad, _⟩
  · have hw' : sinkAnswer (afterUnit (countFrame (logCall (.encode f) s))) (unitAnswer s f) = .fail c := by
      rw [← hw]
      cases he : s.encIn <;> simp [afterUnit, he, sinkAnswer]
    rw [hc, emitUnit, hw', finishWrite, enterError_opened (by simp [hs])]
    cases he : s.encIn <;> cases hk : s.sinkIn <;>
      simp [afterUnit, afterSink, he, hk, countWrite, countFrame, logCall]
  · simp [(unitLengthOk_iff _).2 ⟨hmin, hmax⟩] at hbad

/-! ### The frame buffer -/

@[simp] theorem fullCount_eq : fullCount = 80#7 := rfl

/-- A push stores, and hands the frame off when it is the 80th. -/
theorem fbPush_cases (x : Sample) (s : State) :
    (s.fcnt + 1 = 80#7 ∧ fbPush x s = fbHandoff (fbStore x s)) ∨ (s.fcnt + 1 ≠ 80#7 ∧ fbPush x s = fbStore x s) := by
  by_cases h : s.fcnt + 1 = 80#7
  · exact .inl ⟨h, if_pos h⟩
  · exact .inr ⟨h, if_neg h⟩

/-- A flush does nothing to an empty buffer, and hands one padded frame off otherwise. -/
theorem fbFlush_cases (s : State) :
    (s.fcnt = 0 ∧ fbFlush s = s) ∨
      (s.fcnt ≠ 0 ∧ fbFlush s = fbHandoff (padBuffer s)) := by
  by_cases h : s.fcnt = 0
  · exact .inl ⟨h, if_pos h⟩
  · exact .inr ⟨h, if_neg h⟩

theorem padFrom_get (k : Nat) (f : Frame) (i : Nat) (h : i < 80) :
    (padFrom k f)[i] = if i < k then f[i] else 0 := by
  simp [padFrom, Config.padValue]

/-! ### The guard, the fetch and the step -/

/-- A guarded command is consumed in Error, takes its effect where it is legal, and is IllegalCommand elsewhere. -/
theorem guarded_cases (i : Instr) (s : State) (e : State → State) :
    (s.runState = .error ∧ guarded i s e = .next s) ∨
      (s.runState ≠ .error ∧ legal s i = true ∧ guarded i s e = .next (e s)) ∨
      (s.runState ≠ .error ∧ legal s i = false ∧ guarded i s e = .fault (.illegalCommand (encode i))) := by
  unfold guarded
  split
  · exact .inl ⟨‹_›, rfl⟩
  · split
    · exact .inr (.inl ⟨‹_›, ‹_›, rfl⟩)
    · exact .inr (.inr ⟨‹_›, by simp_all, rfl⟩)

/-- What the effect of each command is; `exec` is its guard around it. -/
def effectOf : Instr → State → State
  | .cfg f => selectFormat f
  | .start => beginRun
  | .sample x => takeSample x
  | .eos => endStream
  | .srcerr c => enterError .sourceRead c
  | .cancel => enterError .cancelled 0

theorem exec_eq_guarded (i : Instr) (s : State) : exec i s = guarded i s (effectOf i) := by
  cases i <;> rfl

/-- Every next state of a command: it was consumed in Error, or it was legal and took its effect. -/
theorem exec_next {i : Instr} {s t : State} (h : exec i s = .next t) :
    (s.runState = .error ∧ t = s) ∨ (s.runState ≠ .error ∧ legal s i = true ∧ t = effectOf i s) := by
  rw [exec_eq_guarded] at h
  rcases guarded_cases i s (effectOf i) with ⟨he, hg⟩ | ⟨hn, hl, hg⟩ | ⟨_, _, hg⟩ <;> rw [hg] at h
  · exact .inl ⟨he, by simpa using h.symm⟩
  · exact .inr ⟨hn, hl, by simpa using h.symm⟩
  · simp at h

/-- A command never refuses. -/
theorem exec_not_refused (i : Instr) (s : State) (r : Refusal) : exec i s ≠ .refused r := by
  rw [exec_eq_guarded]
  rcases guarded_cases i s (effectOf i) with ⟨_, hg⟩ | ⟨_, _, hg⟩ | ⟨_, _, hg⟩ <;> rw [hg] <;> simp

/-- Every next state of a step: it waited, took the reset input, consumed a word in Error, or executed a decoded command. -/
theorem step_next {s t : State} (h : step s = .next t) :
    (s.hostIn = [] ∧ t = s) ∨
      (∃ rest, s.hostIn = .reset :: rest ∧ t = resetInput { s with hostIn := rest }) ∨
      (∃ w rest, s.hostIn = .word w :: rest ∧ s.runState = .error ∧ t = { s with hostIn := rest }) ∨
      (∃ w rest i, s.hostIn = .word w :: rest ∧ s.runState ≠ .error ∧ decode s.hasCancel w = .ok i ∧
        exec i { s with hostIn := rest } = .next t) := by
  unfold step fetch at h
  cases hh : s.hostIn with
  | nil => simp only [hh] at h; exact .inl ⟨rfl, by simpa using h.symm⟩
  | cons e rest =>
    cases e with
    | reset => simp only [hh] at h; exact .inr (.inl ⟨rest, rfl, by simpa using h.symm⟩)
    | word w =>
      simp only [hh] at h
      by_cases he : s.runState = .error
      · rw [if_pos he] at h
        exact .inr (.inr (.inl ⟨w, rest, rfl, he, (Host.Outcome.next.inj h).symm⟩))
      · rw [if_neg he] at h
        cases hd : decode s.hasCancel w with
        | error r => simp [hd] at h
        | ok i => simp only [hd] at h; exact .inr (.inr (.inr ⟨w, rest, i, rfl, he, hd, h⟩))

end Sys2Proof.Machine
end

