-- ==== Sys2Proof/Laws/Frame.lean ====
section
/-! SUPPORT. What each composed operation leaves unchanged, one lemma per field: the sink write, the open, the frame cycle, the push
and the flush. -/

namespace Sys2Proof.Machine

/-! ### emitUnit -/

@[simp] theorem emitUnit_hasCancel (u : List Byte) (s : State) : (emitUnit u s).hasCancel = s.hasCancel := by
  rcases emitUnit_cases u s with ⟨_, h⟩ | ⟨_, _, h⟩ <;> simp [h]
@[simp] theorem emitUnit_fmtCfgd (u : List Byte) (s : State) : (emitUnit u s).fmtCfgd = s.fmtCfgd := by
  rcases emitUnit_cases u s with ⟨_, h⟩ | ⟨_, _, h⟩ <;> simp [h]
@[simp] theorem emitUnit_fmtCode (u : List Byte) (s : State) : (emitUnit u s).fmtCode = s.fmtCode := by
  rcases emitUnit_cases u s with ⟨_, h⟩ | ⟨_, _, h⟩ <;> simp [h]
@[simp] theorem emitUnit_fbuf (u : List Byte) (s : State) : (emitUnit u s).fbuf = s.fbuf := by
  rcases emitUnit_cases u s with ⟨_, h⟩ | ⟨_, _, h⟩ <;> simp [h]
@[simp] theorem emitUnit_fcnt (u : List Byte) (s : State) : (emitUnit u s).fcnt = s.fcnt := by
  rcases emitUnit_cases u s with ⟨_, h⟩ | ⟨_, _, h⟩ <;> simp [h]
@[simp] theorem emitUnit_past (u : List Byte) (s : State) : (emitUnit u s).past = s.past := by
  rcases emitUnit_cases u s with ⟨_, h⟩ | ⟨_, _, h⟩ <;> simp [h]
@[simp] theorem emitUnit_hostIn (u : List Byte) (s : State) : (emitUnit u s).hostIn = s.hostIn := by
  rcases emitUnit_cases u s with ⟨_, h⟩ | ⟨_, _, h⟩ <;> simp [h]
@[simp] theorem emitUnit_openIn (u : List Byte) (s : State) : (emitUnit u s).openIn = s.openIn := by
  rcases emitUnit_cases u s with ⟨_, h⟩ | ⟨_, _, h⟩ <;> simp [h]
@[simp] theorem emitUnit_encIn (u : List Byte) (s : State) : (emitUnit u s).encIn = s.encIn := by
  rcases emitUnit_cases u s with ⟨_, h⟩ | ⟨_, _, h⟩ <;> simp [h]
@[simp] theorem emitUnit_nsamp (u : List Byte) (s : State) : (emitUnit u s).obs.nsamp = s.obs.nsamp := by
  rcases emitUnit_cases u s with ⟨_, h⟩ | ⟨_, _, h⟩ <;> simp [h]
@[simp] theorem emitUnit_nframes (u : List Byte) (s : State) : (emitUnit u s).obs.nframes = s.obs.nframes := by
  rcases emitUnit_cases u s with ⟨_, h⟩ | ⟨_, _, h⟩ <;> simp [h]

@[simp] theorem emitUnit_nwrites (u : List Byte) (s : State) : (emitUnit u s).obs.nwrites = s.obs.nwrites + 1 := by
  rcases emitUnit_cases u s with ⟨_, h⟩ | ⟨_, _, h⟩ <;> simp [h]

/-! ### encOpen -/

@[simp] theorem encOpen_hasCancel (s : State) : (encOpen s).hasCancel = s.hasCancel := by
  rcases encOpen_cases s with ⟨_, h⟩ | ⟨_, _, h⟩ <;> simp [h]
@[simp] theorem encOpen_fmtCfgd (s : State) : (encOpen s).fmtCfgd = s.fmtCfgd := by
  rcases encOpen_cases s with ⟨_, h⟩ | ⟨_, _, h⟩ <;> simp [h]
@[simp] theorem encOpen_fmtCode (s : State) : (encOpen s).fmtCode = s.fmtCode := by
  rcases encOpen_cases s with ⟨_, h⟩ | ⟨_, _, h⟩ <;> simp [h]
@[simp] theorem encOpen_fbuf (s : State) : (encOpen s).fbuf = s.fbuf := by
  rcases encOpen_cases s with ⟨_, h⟩ | ⟨_, _, h⟩ <;> simp [h]
@[simp] theorem encOpen_fcnt (s : State) : (encOpen s).fcnt = s.fcnt := by
  rcases encOpen_cases s with ⟨_, h⟩ | ⟨_, _, h⟩ <;> simp [h]
@[simp] theorem encOpen_past (s : State) : (encOpen s).past = s.past := by
  rcases encOpen_cases s with ⟨_, h⟩ | ⟨_, _, h⟩ <;> simp [h]
@[simp] theorem encOpen_hostIn (s : State) : (encOpen s).hostIn = s.hostIn := by
  rcases encOpen_cases s with ⟨_, h⟩ | ⟨_, _, h⟩ <;> simp [h]
@[simp] theorem encOpen_sinkIn (s : State) : (encOpen s).sinkIn = s.sinkIn := by
  rcases encOpen_cases s with ⟨_, h⟩ | ⟨_, _, h⟩ <;> simp [h]
@[simp] theorem encOpen_encIn (s : State) : (encOpen s).encIn = s.encIn := by
  rcases encOpen_cases s with ⟨_, h⟩ | ⟨_, _, h⟩ <;> simp [h]
@[simp] theorem encOpen_out (s : State) : (encOpen s).obs.out = s.obs.out := by
  rcases encOpen_cases s with ⟨_, h⟩ | ⟨_, _, h⟩ <;> simp [h]
@[simp] theorem encOpen_nsamp (s : State) : (encOpen s).obs.nsamp = s.obs.nsamp := by
  rcases encOpen_cases s with ⟨_, h⟩ | ⟨_, _, h⟩ <;> simp [h]
@[simp] theorem encOpen_nframes (s : State) : (encOpen s).obs.nframes = s.obs.nframes := by
  rcases encOpen_cases s with ⟨_, h⟩ | ⟨_, _, h⟩ <;> simp [h]
@[simp] theorem encOpen_nwrites (s : State) : (encOpen s).obs.nwrites = s.obs.nwrites := by
  rcases encOpen_cases s with ⟨_, h⟩ | ⟨_, _, h⟩ <;> simp [h]

/-! ### frameCycle -/

@[simp] theorem frameCycle_hasCancel (f : Frame) (s : State) : (frameCycle f s).hasCancel = s.hasCancel := by
  rcases frameCycle_cases f s with ⟨_, h⟩ | ⟨_, h⟩ <;> simp [h]
@[simp] theorem frameCycle_fmtCfgd (f : Frame) (s : State) : (frameCycle f s).fmtCfgd = s.fmtCfgd := by
  rcases frameCycle_cases f s with ⟨_, h⟩ | ⟨_, h⟩ <;> simp [h]
@[simp] theorem frameCycle_fmtCode (f : Frame) (s : State) : (frameCycle f s).fmtCode = s.fmtCode := by
  rcases frameCycle_cases f s with ⟨_, h⟩ | ⟨_, h⟩ <;> simp [h]
@[simp] theorem frameCycle_fbuf (f : Frame) (s : State) : (frameCycle f s).fbuf = s.fbuf := by
  rcases frameCycle_cases f s with ⟨_, h⟩ | ⟨_, h⟩ <;> simp [h]
@[simp] theorem frameCycle_fcnt (f : Frame) (s : State) : (frameCycle f s).fcnt = s.fcnt := by
  rcases frameCycle_cases f s with ⟨_, h⟩ | ⟨_, h⟩ <;> simp [h]
@[simp] theorem frameCycle_past (f : Frame) (s : State) : (frameCycle f s).past = s.past := by
  rcases frameCycle_cases f s with ⟨_, h⟩ | ⟨_, h⟩ <;> simp [h]
@[simp] theorem frameCycle_hostIn (f : Frame) (s : State) : (frameCycle f s).hostIn = s.hostIn := by
  rcases frameCycle_cases f s with ⟨_, h⟩ | ⟨_, h⟩ <;> simp [h]
@[simp] theorem frameCycle_openIn (f : Frame) (s : State) : (frameCycle f s).openIn = s.openIn := by
  rcases frameCycle_cases f s with ⟨_, h⟩ | ⟨_, h⟩ <;> simp [h]
@[simp] theorem frameCycle_nsamp (f : Frame) (s : State) : (frameCycle f s).obs.nsamp = s.obs.nsamp := by
  rcases frameCycle_cases f s with ⟨_, h⟩ | ⟨_, h⟩ <;> simp [h]

@[simp] theorem frameCycle_nframes (f : Frame) (s : State) : (frameCycle f s).obs.nframes = s.obs.nframes + 1 := by
  rcases frameCycle_cases f s with ⟨_, h⟩ | ⟨_, h⟩ <;> simp [h]

/-! ### fbPush -/

@[simp] theorem fbPush_hasCancel (x : Sample) (s : State) : (fbPush x s).hasCancel = s.hasCancel := by
  rcases fbPush_cases x s with ⟨_, h⟩ | ⟨_, h⟩ <;> simp [h, fbHandoff]
@[simp] theorem fbPush_fmtCfgd (x : Sample) (s : State) : (fbPush x s).fmtCfgd = s.fmtCfgd := by
  rcases fbPush_cases x s with ⟨_, h⟩ | ⟨_, h⟩ <;> simp [h, fbHandoff]
@[simp] theorem fbPush_fmtCode (x : Sample) (s : State) : (fbPush x s).fmtCode = s.fmtCode := by
  rcases fbPush_cases x s with ⟨_, h⟩ | ⟨_, h⟩ <;> simp [h, fbHandoff]
@[simp] theorem fbPush_past (x : Sample) (s : State) : (fbPush x s).past = s.past := by
  rcases fbPush_cases x s with ⟨_, h⟩ | ⟨_, h⟩ <;> simp [h, fbHandoff]
@[simp] theorem fbPush_hostIn (x : Sample) (s : State) : (fbPush x s).hostIn = s.hostIn := by
  rcases fbPush_cases x s with ⟨_, h⟩ | ⟨_, h⟩ <;> simp [h, fbHandoff]
@[simp] theorem fbPush_openIn (x : Sample) (s : State) : (fbPush x s).openIn = s.openIn := by
  rcases fbPush_cases x s with ⟨_, h⟩ | ⟨_, h⟩ <;> simp [h, fbHandoff]
@[simp] theorem fbPush_nsamp (x : Sample) (s : State) : (fbPush x s).obs.nsamp = s.obs.nsamp := by
  rcases fbPush_cases x s with ⟨_, h⟩ | ⟨_, h⟩ <;> simp [h, fbHandoff]

/-! ### fbFlush -/

@[simp] theorem fbFlush_hasCancel (s : State) : (fbFlush s).hasCancel = s.hasCancel := by
  rcases fbFlush_cases s with ⟨_, h⟩ | ⟨_, h⟩ <;> simp [h, fbHandoff]
@[simp] theorem fbFlush_fmtCfgd (s : State) : (fbFlush s).fmtCfgd = s.fmtCfgd := by
  rcases fbFlush_cases s with ⟨_, h⟩ | ⟨_, h⟩ <;> simp [h, fbHandoff]
@[simp] theorem fbFlush_fmtCode (s : State) : (fbFlush s).fmtCode = s.fmtCode := by
  rcases fbFlush_cases s with ⟨_, h⟩ | ⟨_, h⟩ <;> simp [h, fbHandoff]
@[simp] theorem fbFlush_past (s : State) : (fbFlush s).past = s.past := by
  rcases fbFlush_cases s with ⟨_, h⟩ | ⟨_, h⟩ <;> simp [h, fbHandoff]
@[simp] theorem fbFlush_hostIn (s : State) : (fbFlush s).hostIn = s.hostIn := by
  rcases fbFlush_cases s with ⟨_, h⟩ | ⟨_, h⟩ <;> simp [h, fbHandoff]
@[simp] theorem fbFlush_openIn (s : State) : (fbFlush s).openIn = s.openIn := by
  rcases fbFlush_cases s with ⟨_, h⟩ | ⟨_, h⟩ <;> simp [h, fbHandoff]
@[simp] theorem fbFlush_nsamp (s : State) : (fbFlush s).obs.nsamp = s.obs.nsamp := by
  rcases fbFlush_cases s with ⟨_, h⟩ | ⟨_, h⟩ <;> simp [h, fbHandoff]

/-- A flush leaves the buffer empty. -/
@[simp] theorem fbFlush_fcnt (s : State) : (fbFlush s).fcnt = 0 := by
  rcases fbFlush_cases s with ⟨h0, h⟩ | ⟨_, h⟩
  · rw [h, h0]
  · simp [h, fbHandoff]

end Sys2Proof.Machine
end

