-- ==== Sys2Proof/Laws/Commands.lean ====
section
/-! SUPPORT. The effect of each command by format, and what a sink write and a frame cycle do to the run state, the session, the
error registers and the records. -/

namespace Sys2Proof.Machine

/-! ### The effects by format -/

theorem beginRun_not_frame {s : State} (h : s.fmtCode ≠ .frame) : beginRun s = setRun .streaming s := by
  unfold beginRun
  split <;> simp_all

theorem beginRun_frame {s : State} (h : s.fmtCode = .frame) : beginRun s = afterOpening (encOpen s) := by
  simp only [beginRun, h]

theorem takeSample_not_frame {s : State} (h : s.fmtCode ≠ .frame) (x : Sample) :
    takeSample x s = emitUnit (sampleUnit s.fmtCode x) (countSample s) := by
  unfold takeSample
  split <;> simp_all [sampleUnit]

theorem takeSample_frame {s : State} (h : s.fmtCode = .frame) (x : Sample) :
    takeSample x s = fbPush x (countSample s) := by
  simp only [takeSample, h]

theorem endStream_not_frame {s : State} (h : s.fmtCode ≠ .frame) : endStream s = setRun .done s := by
  unfold endStream
  split <;> simp_all

theorem endStream_frame {s : State} (h : s.fmtCode = .frame) :
    endStream s = afterDraining (fbFlush (setRun .draining s)) := by
  simp only [endStream, h]

theorem sampleUnit_length (f : Format) (x : Sample) :
    (sampleUnit f x).length = (match f with
      | .mulaw => 1
      | .alaw => 1
      | .pcm16le => 2
      | .frame => 0) := by
  cases f <;> rfl

/-! ### The units of a run of frames -/

@[simp] theorem encoderUnits_nil (s : State) : encoderUnits [] s = [] := rfl

@[simp] theorem encoderUnits_cons (f : Frame) (fs : List Frame) (s : State) :
    encoderUnits (f :: fs) s = unitAnswer s f :: encoderUnits fs (afterSink (afterUnit s)) := rfl

/-- One unit a frame. -/
@[simp] theorem encoderUnits_length (fs : List Frame) (s : State) : (encoderUnits fs s).length = fs.length := by
  induction fs generalizing s with
  | nil => rfl
  | cons f fs ih => simp [ih]

/-- The units depend on what the agents will answer and on the number of draws, on nothing else of the state. -/
theorem encoderUnits_congr (fs : List Frame) {s t : State} (he : t.encIn = s.encIn) (hk : t.sinkIn = s.sinkIn)
    (hd : t.drawn = s.drawn) : encoderUnits fs t = encoderUnits fs s := by
  induction fs generalizing s t with
  | nil => rfl
  | cons f fs ih =>
    rw [encoderUnits_cons, encoderUnits_cons, unitAnswer_congr he hd]
    congr 1
    cases hs : s.encIn <;> cases hq : s.sinkIn <;>
      exact ih (by simp [afterSink, afterUnit, he, hk, hs, hq]) (by simp [afterSink, afterUnit, he, hk, hs, hq])
        (by simp [afterSink, afterUnit, he, hk, hd, hs, hq])

/-! ### The registers after a sink write and after a frame cycle -/

/-- A sink write leaves STATE, SESS and the error registers and appends the unit, or enters SinkWriteError and appends nothing. -/
theorem emitUnit_registers (u : List Byte) (s : State) :
    ((emitUnit u s).runState = s.runState ∧ (emitUnit u s).sess = s.sess ∧ (emitUnit u s).err = s.err ∧
        (emitUnit u s).errinfo = s.errinfo ∧ (emitUnit u s).obs.out = s.obs.out ++ u ∧
        (emitUnit u s).obs.encLog = s.obs.encLog) ∨
      ((emitUnit u s).runState = .error ∧ (emitUnit u s).sess = (if s.sess = .opened then .closed else s.sess) ∧
        (emitUnit u s).err = .sinkWrite ∧ (emitUnit u s).obs.out = s.obs.out ∧
        (emitUnit u s).obs.encLog = if s.sess = .opened then s.obs.encLog ++ [.close] else s.obs.encLog) := by
  rcases emitUnit_cases u s with ⟨_, h⟩ | ⟨_, _, h⟩
  · left
    simp [h]
  · right
    rw [h]
    refine ⟨by simp, ?_, by simp, by simp, ?_⟩ <;> simp

/-- A frame cycle leaves STATE, SESS and the error registers and appends a unit of legal length in one write, or enters
SinkWriteError or EncoderInvariantError and appends nothing; one Encode is logged either way. -/
theorem frameCycle_registers (f : Frame) (s : State) :
    ((frameCycle f s).runState = s.runState ∧ (frameCycle f s).sess = s.sess ∧ (frameCycle f s).err = s.err ∧
        (frameCycle f s).errinfo = s.errinfo ∧ (1 ≤ (unitAnswer s f).length ∧ (unitAnswer s f).length ≤ 10) ∧
        (frameCycle f s).obs.nwrites = s.obs.nwrites + 1 ∧
        (frameCycle f s).obs.out = s.obs.out ++ unitAnswer s f ∧
        (frameCycle f s).obs.encLog = s.obs.encLog ++ [.encode f]) ∨
      ((frameCycle f s).runState = .error ∧ (frameCycle f s).sess = (if s.sess = .opened then .closed else s.sess) ∧
        ((frameCycle f s).err = .sinkWrite ∨ (frameCycle f s).err = .encoderInvariant) ∧
        (frameCycle f s).obs.out = s.obs.out ∧
        (frameCycle f s).obs.encLog =
          if s.sess = .opened then s.obs.encLog ++ [.encode f, .close] else s.obs.encLog ++ [.encode f]) := by
  rcases frameCycle_cases f s with ⟨hl, h⟩ | ⟨_, h⟩
  · have hr := emitUnit_registers (unitAnswer s f) (afterUnit (countFrame (logCall (.encode f) s)))
    rw [← h] at hr
    rcases hr with ⟨hrun, hsess, herr, hinfo, hout, hlog⟩ | ⟨hrun, hsess, herr, hout, hlog⟩
    · left
      exact ⟨by simpa using hrun, by simpa using hsess, by simpa using herr, by simpa using hinfo,
        (unitLengthOk_iff _).1 hl, by simp [h], by simpa using hout, by simpa using hlog⟩
    · right
      exact ⟨hrun, by simpa using hsess, .inl herr, by simpa using hout, by simpa using hlog⟩
  · right
    rw [h]
    refine ⟨by simp, ?_, by simp, by simp, ?_⟩ <;> simp

end Sys2Proof.Machine
end

