-- ==== Sys2Proof/Laws/Decode.lean ====
section
/-! SUPPORT. The fields of a packed command word, and the format codes (30_encoding.md R80, R83). -/

namespace Sys2Proof

@[simp] theorem opField_packWord (op : BitVec 4) (x : BitVec 16) : opField (packWord op x) = op := by
  ext i hi
  have h28 : 28 + i < 32 := by omega
  have hx : x.getLsbD (28 + i) = false := BitVec.getLsbD_of_ge x _ (by omega)
  simp [opField, packWord, h28, hx, hi]

@[simp] theorem rsvField_packWord (op : BitVec 4) (x : BitVec 16) : rsvField (packWord op x) = 0 := by
  ext i hi
  have h28 : 16 + i < 28 := by omega
  simp [rsvField, packWord, h28]

@[simp] theorem opndField_packWord (op : BitVec 4) (x : BitVec 16) : opndField (packWord op x) = x := by
  ext i hi
  have h28 : i < 28 := by omega
  have h32 : i < 32 := by omega
  simp [opndField, packWord, h28, h32, hi]

/-- A word whose reserved field is zero is made of its other two fields. -/
theorem packWord_fields {w : Word} (h : rsvField w = 0) : packWord (opField w) (opndField w) = w := by
  ext i hi
  have hr : ∀ j, j < 12 → w.getLsbD (16 + j) = false := by
    intro j hj
    have := congrArg (fun v => v.getLsbD j) h
    simpa [rsvField, hj] using this
  by_cases h16 : i < 16
  · have h28 : i < 28 := by omega
    simp [packWord, opField, opndField, hi, h16, h28]
  · by_cases h28 : i < 28
    · have hz := hr (i - 16) (by omega)
      rw [show 16 + (i - 16) = i by omega, BitVec.getLsbD_eq_getElem hi] at hz
      simp [packWord, opField, opndField, hi, h16, h28, hz]
    · have e : 28 + (i - 28) = i := by omega
      have h4 : i - 28 < 4 := by omega
      simp [packWord, opField, opndField, hi, h16, h28, h4, e]

@[simp] theorem Format.ofCode_code (f : Format) : Format.ofCode f.code = f := by cases f <;> rfl

theorem Format.code_ofCode (c : BitVec 2) : (Format.ofCode c).code = c := by revert c; decide

end Sys2Proof
end

