-- ==== Sys2Proof/Laws/PerInstr.lean ====
section
/-! SUPPORT. Statements about every command, made per constructor. -/

namespace Sys2Proof.Laws.EncodingRow

/-- The command's word is taken by the command's own row of the match and mask table (30_encoding.md R89), on every block
that has the command. -/
def Statement (i : Instr) : Prop := ∀ hasCancel : Bool, wellFormed hasCancel i = true → i.row.takes hasCancel (encode i) = true

theorem operandMask_bit : ∀ i : Fin 32, (0xFFFF0000#32).getLsbD i.val = decide (16 ≤ i.val) := by decide

/-- The mask 0xFFFF_0000 of a packed word leaves the opcode. -/
theorem packWord_and_operandMask (op : BitVec 4) (x : BitVec 16) :
    packWord op x &&& 0xFFFF0000#32 = op.zeroExtend 32 <<< 28 := by
  ext i hi
  have hm : (0xFFFF0000#32)[i] = decide (16 ≤ i) := operandMask_bit ⟨i, hi⟩
  by_cases h : i < 16
  · have h28 : i < 28 := by omega
    have h16 : ¬ 16 ≤ i := by omega
    simp only [BitVec.getElem_and, hm, h16, decide_false, Bool.and_false]
    simp [h28]
  · have hx : x.getLsbD i = false := BitVec.getLsbD_of_ge x i (by omega)
    have h16 : 16 ≤ i := by omega
    simp only [BitVec.getElem_and, hm, h16, decide_true, Bool.and_true]
    simp [packWord, hx]

theorem cfg (f : Format) : Statement (.cfg f) := by
  intro hc _
  cases f <;> cases hc <;> rfl

theorem start : Statement .start := by
  intro hc _
  cases hc <;> rfl

theorem sample (x : Sample) : Statement (.sample x) := by
  intro hc _
  simp [Instr.row, sampleRow, OpcodeRow.takes, encode, packWord_and_operandMask]

theorem eos : Statement .eos := by
  intro hc _
  cases hc <;> rfl

theorem srcerr (c : Cause) : Statement (.srcerr c) := by
  intro hc _
  simp [Instr.row, srcerrRow, OpcodeRow.takes, encode, packWord_and_operandMask]

theorem cancel : Statement .cancel := by
  intro hc h
  cases hc
  · exact absurd h (by decide)
  · rfl

end Sys2Proof.Laws.EncodingRow
end

