-- ==== Sys2Proof/Tests/Slice0.lean ====
section
/-! SUPPORT. The model's own tests, and the witnesses that the hypotheses of the statements can be met. Words are written out from
30_encoding.md R82 to R92; expected results are those of 95_test_vectors.md and of the worked examples of 43_pipeline.md. -/

namespace Sys2Proof.Tests

open Sys2Proof Sys2Proof.Machine

/-! ### Small states -/

/-- Idle with a format selected. -/
def idleIn (f : Format) : State := { State.reset with fmtCfgd := true, fmtCode := f }

/-- Streaming in a format that opens no session, the sink's answers listed. -/
def streamingIn (f : Format) (sink : List Answer) : State :=
  { idleIn f with runState := .streaming, sinkIn := sink }

/-- The buffer with 1 at index 0 and 2 at index 78, and stale samples 9 elsewhere. -/
def someFrame : Frame := ((Vector.replicate 80 9).setIfInBounds 0 1).setIfInBounds 78 2

/-- Streaming in FRAME with its session open, `n` samples buffered, and the agents' answers listed. -/
def framing (n : BitVec 7) (units : List (List Byte)) (sink : List Answer) : State :=
  { idleIn .frame with runState := .streaming, sess := .opened, fcnt := n, fbuf := someFrame, encIn := units, sinkIn := sink,
                       obs := { RunRecord.empty with encLog := [.open_] } }

/-- Done after a MULAW run. -/
def doneState : State := { idleIn .mulaw with runState := .done }

/-- Error after a CANCEL or a SRCERR that left a partial frame. -/
def errorState : State :=
  { framing 3 [] [] with runState := .error, sess := .closed, err := .sourceRead, errinfo := 5,
                         obs := { RunRecord.empty with encLog := [.open_, .close] } }

/-- The state with one word presented. -/
def withWord (s : State) (w : Word) : State := { s with hostIn := [.word w] }

/-- The state on a block that has CANCEL. -/
def withCancel (s : State) : State := { s with hasCancel := true }

/-- A unit of ten bytes. -/
def tenBytes : List Byte := [1, 2, 3, 4, 5, 6, 7, 8, 9, 10]

/-- What a next state holds. -/
def got {α : Type} (o : Host.Outcome State Fault Refusal) (f : State → α) : Option α :=
  match o with
  | .next t => some (f t)
  | .fault _ => none
  | .refused _ => none

/-- The fault of an outcome. -/
def faultOf (o : Host.Outcome State Fault Refusal) : Option Fault :=
  match o with
  | .next _ => none
  | .fault r => some r
  | .refused _ => none

/-! ### WellFormed and the operand checks (R82, R88.5, R90) -/

theorem test_wellFormed_cancel_needs_hasCancel : wellFormed false .cancel = false ∧ wellFormed true .cancel = true := by decide

theorem test_operand_ranges_checked :
    (AsmLine.cfg (.number 4)).assemble = none ∧ (AsmLine.sample (.dec 32768)).assemble = none ∧
    (AsmLine.sample (.dec (-32769))).assemble = none ∧ (AsmLine.sample (.hex 0x10000)).assemble = none ∧
    (AsmLine.srcerr (.dec (-1))).assemble = none ∧ (AsmLine.srcerr (.dec 65536)).assemble = none := by decide

theorem test_operand_bounds_accepted :
    (AsmLine.sample (.dec (-32768))).assemble = some [0x30008000] ∧
    (AsmLine.sample (.dec 32767)).assemble = some [0x30007FFF] ∧
    (AsmLine.srcerr (.dec 65535)).assemble = some [0x5000FFFF] := by decide

/-- R90 on text: a hex operand is the raw 16 bits, whatever the case of its digits; `#k` is decimal (log entry 10). -/
theorem test_text_numerals :
    assembleText "SAMPLE 0xbEEF ; hex".toList = some [0x3000BEEF] ∧ assembleText "SAMPLE 0x10000".toList = none ∧
    assembleText "CFG #03".toList = some [0x10000003] ∧ assembleText "CFG #0x1".toList = none := by decide

/-! ### Decoding words written out bit by bit: OP, RSV, OPND (R80, R82) -/

theorem test_decode_cfg : decode false 0b0001_000000000000_0000000000000010#32 = .ok (.cfg .pcm16le) := by decide

theorem test_decode_start : decode false 0b0010_000000000000_0000000000000000#32 = .ok .start := by decide

theorem test_decode_sample : decode false 0b0011_000000000000_1000000000000001#32 = .ok (.sample 0x8001) := by decide

theorem test_decode_eos : decode false 0b0100_000000000000_0000000000000000#32 = .ok .eos := by decide

theorem test_decode_srcerr : decode false 0b0101_000000000000_1111111111111110#32 = .ok (.srcerr 0xFFFE) := by decide

theorem test_decode_cancel : decode true 0b0110_000000000000_0000000000000000#32 = .ok .cancel := by decide

/-- R88, each item at its edge. -/
theorem test_decode_invalid :
    decode true 0x00000000 = .error .reservedOpcode ∧ decode true 0x70000000 = .error .reservedOpcode ∧
    decode true 0xF0000000 = .error .reservedOpcode ∧ decode true 0x30010000 = .error .reservedField ∧
    decode true 0x38000000 = .error .reservedField ∧ decode true 0x10000004 = .error .cfgOperand ∧
    decode true 0x10008000 = .error .cfgOperand ∧ decode true 0x20000001 = .error .operandNotZero ∧
    decode true 0x40008000 = .error .operandNotZero ∧ decode true 0x60000001 = .error .operandNotZero ∧
    decode false 0x60000000 = .error .noCancel := by decide

/-- The host's entry to the decoder, on the words of spec/opcode_table.json. -/
theorem test_decodeTableWord :
    decodeTableWord 32 0x10000000 = some (.cfg .mulaw) ∧ decodeTableWord 32 0x20000000 = some .start ∧
    decodeTableWord 32 0x30000000 = some (.sample 0) ∧ decodeTableWord 32 0x40000000 = some .eos ∧
    decodeTableWord 32 0x50000000 = some (.srcerr 0) ∧ decodeTableWord 32 0x60000000 = some .cancel ∧
    decodeTableWord 32 0x70000000 = none := by decide

/-! ### One step of each command -/

/-- R172, worked example: CFG ALAW after reset makes STATUS 0x18. -/
theorem test_cfg_alaw_status :
    got (step (State.reset.withFetchWord 32 0x10000001)) (statusRead 0) = some 0x00000018 := by decide

/-- R173: CFG in Streaming is IllegalCommand. -/
theorem test_cfg_in_streaming :
    faultOf (exec (.cfg .frame) (streamingIn .mulaw [])) = some (.illegalCommand 0x10000003) := by decide

/-- R174, worked example: an open answered ok. -/
theorem test_start_frame_opens :
    got (exec .start { idleIn .frame with openIn := [.ok] })
      (fun t => (t.runState, t.sess, t.obs.encLog)) = some (.streaming, .opened, [.open_]) := by decide

/-- R151, 95_test_vectors.md §8: a refused open ends the run in EncoderInitError with no Close. -/
theorem test_start_frame_refused :
    got (exec .start { idleIn .frame with openIn := [.fail 7] })
      (fun t => (t.runState, t.err, t.errinfo, t.sess, t.obs.encLog)) =
        some (.error, .encoderInit, 7, .none, [.open_]) := by decide

/-- R177, R178, worked examples: ALAW SAMPLE 1000 writes 0xFA; of 0x1234 both PCM16LE bytes are in OUT, or neither. -/
theorem test_sample_writes :
    got (exec (.sample 1000) (streamingIn .alaw [.ok])) (fun t => t.obs.out) = some [0xFA] ∧
    got (exec (.sample 0x1234) (streamingIn .pcm16le [.ok])) (fun t => t.obs.out) = some [0x34, 0x12] ∧
    got (exec (.sample 0x1234) (streamingIn .pcm16le [.fail 3])) (fun t => (t.obs.out, t.err, t.errinfo)) =
      some ([], .sinkWrite, 3) := by decide

set_option maxRecDepth 2000 in
/-- R136: with FCNT 1 the flush sends one frame, the sample and 79 zeros, whatever stale samples FBUF holds. -/
theorem test_eos_pads_with_zeros :
    got (exec .eos (framing 1 [tenBytes] [.ok])) (fun t => (t.runState, t.sess, t.obs.out)) =
      some (.done, .closed, tenBytes) ∧
    got (exec .eos (framing 1 [tenBytes] [.ok])) (fun t => t.obs.encLog) =
      some [.open_, .encode ((Vector.replicate 80 0).setIfInBounds 0 1), .close] := by decide

/-- R182: EOS outside FRAME makes no call. -/
theorem test_eos_mulaw :
    got (exec .eos (streamingIn .mulaw [])) (fun t => (t.runState, t.sess, t.obs.encLog)) = some (.done, .none, []) := by decide

/-- R184: SRCERR closes an open session and keeps the partial frame. -/
theorem test_srcerr_frame :
    got (exec (.srcerr 5) (framing 3 [] [])) (fun t => (t.err, t.errinfo, t.fcnt)) = some (.sourceRead, 5, 3) ∧
    got (exec (.srcerr 5) (framing 3 [] [])) (fun t => (t.sess, t.obs.encLog)) = some (.closed, [.open_, .close]) := by decide

/-- R186: CANCEL on a block that has it. -/
theorem test_cancel_frame :
    got (step (withWord (withCancel (framing 3 [] [])) 0x60000000))
      (fun t => (t.runState, t.err, t.errinfo, t.sess, t.fcnt)) = some (.error, .cancelled, 0, .closed, 3) := by decide

/-- R88.5: CANCEL's word on a block without it. -/
theorem test_cancel_absent :
    faultOf (step (withWord (framing 3 [] []) 0x60000000)) = some (.illegalCommand 0x60000000) := by decide

/-- R156: the unit lengths 0, 1, 10 and 11 on the push that completes a frame. -/
theorem test_sample_frame_lengths :
    got (exec (.sample 4) (framing 79 [[]] [.ok])) (fun t => (t.err, t.errinfo, t.sess, t.fcnt)) =
      some (.encoderInvariant, 0, .closed, 0) ∧
    got (exec (.sample 4) (framing 79 [[8]] [.ok])) (fun t => (t.runState, t.sess, t.fcnt, t.obs.out)) =
      some (.streaming, .opened, 0, [8]) ∧
    got (exec (.sample 4) (framing 79 [tenBytes] [.ok])) (fun t => (t.runState, t.obs.out)) =
      some (.streaming, tenBytes) ∧
    got (exec (.sample 4) (framing 79 [11 :: tenBytes] [.ok])) (fun t => (t.err, t.errinfo, t.obs.out, t.obs.nwrites)) =
      some (.encoderInvariant, 11, [], 0) := by decide

/-! ### Witnesses: the hypotheses of each statement met together, each clause at an edge of its range -/

theorem witness_DecodeOfEncode :
    wellFormed false (.sample 0x8000) = true ∧ wellFormed false (.srcerr 0xFFFF) = true ∧ wellFormed true .cancel = true := by
  decide

theorem witness_EncodeOfDecode :
    decode false 0x10000003 = .ok (.cfg .frame) ∧ decode false 0x30008000 = .ok (.sample 0x8000) ∧
    decode true 0x60000000 = .ok .cancel := by decide

theorem witness_InvalidWordsExactly :
    (withWord State.reset 0x70000000).hostIn = .word 0x70000000 :: [] ∧
    decode (withWord State.reset 0x70000000).hasCancel 0x70000000 = .error .reservedOpcode ∧
    (withWord State.reset 0x70000000).runState ≠ .error ∧
    (withWord errorState 0x60000000).hostIn = .word 0x60000000 :: [] ∧
    decode (withWord errorState 0x60000000).hasCancel 0x60000000 = .error .noCancel ∧
    (withWord errorState 0x60000000).runState = .error := by decide

theorem witness_MatchMaskDecides :
    cfgRow ∈ opcodeTable ∧ cfgRow.takes false 0x10000003 = true ∧
    cancelRow ∈ opcodeTable ∧ cancelRow.takes true 0x60000000 = true ∧
    (∀ r ∈ opcodeTable, r.takes false 0x60000000 = false) ∧ ∀ r ∈ opcodeTable, r.takes true 0x10000004 = false := by decide

theorem witness_StepRunsDecodedCommand :
    (withWord (framing 79 [] []) 0x3000FFFF).hostIn = .word 0x3000FFFF :: [] ∧
    (withWord (framing 79 [] []) 0x3000FFFF).runState ≠ .error ∧
    decode (withWord (framing 79 [] []) 0x3000FFFF).hasCancel 0x3000FFFF = .ok (.sample 0xFFFF) := by decide

theorem witness_StepWaitsForAWord : errorState.hostIn = [] ∧ State.reset.hostIn = [] := by decide

theorem witness_IllegalCommandExactly :
    (withWord State.reset 0x20000000).hostIn = .word 0x20000000 :: [] ∧
    faultOf (step (withWord State.reset 0x20000000)) = some (.illegalCommand 0x20000000) ∧
    faultOf (step (withWord State.reset 0)) = some (.illegalCommand 0) ∧
    faultOf (step (withWord errorState 0)) = none := by decide

theorem witness_LegalityTable :
    errorState.runState = .error ∧
    (State.reset.runState ≠ .error ∧ State.reset.runState ≠ .draining ∧ State.reset.runState = .idle ∧
      State.reset.fmtCfgd = false) ∧
    ((idleIn .frame).runState = .idle ∧ (idleIn .frame).fmtCfgd = true) ∧
    (framing 79 [] []).runState = .streaming ∧
    ((withCancel (framing 0 [] [])).runState = .streaming ∧ (withCancel (framing 0 [] [])).hasCancel = true) ∧
    doneState.runState = .done := by decide

theorem witness_IllegalWordsByState :
    ((withWord State.reset 0x40000000).hostIn = .word (encode .eos) :: [] ∧
      (withWord State.reset 0x40000000).runState ≠ .draining) ∧
    faultOf (step (withWord State.reset 0x20000000)) = some (.illegalCommand (encode .start)) ∧
    faultOf (step (withWord (streamingIn .mulaw []) 0x10000000)) = some (.illegalCommand (encode (.cfg .mulaw))) ∧
    faultOf (step (withWord doneState 0x60000000)) = some (.illegalCommand (encode .cancel)) := by decide

theorem witness_ErrorConsumesEveryWord :
    (withWord errorState 0xFFFFFFFF).runState = .error ∧
    (withWord errorState 0xFFFFFFFF).hostIn = .word 0xFFFFFFFF :: [] := by decide

theorem witness_OneErrorPerRun :
    errorState.runState = .error ∧ errorState.hostIn = ([] : List Word).map .word ∧
    ({ errorState with hostIn := [.word 0, .word 0x20000000] } : State).hostIn = [0, 0x20000000].map .word := by decide

/-- One move of each row of the transition table. -/
theorem witness_RunStateMovesAsListed :
    got (step { errorState with hostIn := [.reset] }) (·.runState) = some .idle ∧
    faultOf (step (withWord doneState 0x10000000)) = some (.illegalCommand 0x10000000) ∧
    got (step (withWord State.reset 0x10000003)) (·.runState) = some .idle ∧
    got (step (withWord (idleIn .pcm16le) 0x20000000)) (·.runState) = some .streaming ∧
    got (step { withWord (idleIn .frame) 0x20000000 with openIn := [.ok] }) (·.runState) = some .streaming ∧
    got (step { withWord (idleIn .frame) 0x20000000 with openIn := [.fail 1] }) (·.err) = some .encoderInit ∧
    got (step (withWord (streamingIn .alaw [.ok]) 0x30000000)) (·.runState) = some .streaming ∧
    got (step (withWord (streamingIn .alaw [.fail 1]) 0x30000000)) (·.err) = some .sinkWrite ∧
    got (step (withWord (framing 79 [[]] []) 0x30000000)) (·.err) = some .encoderInvariant ∧
    sampleUnitBad (framing 79 [[]] []) 0 ∧ sampleUnitBad (framing 79 [11 :: tenBytes] []) 0 ∧
    sampleBuffers (framing 78 [] []) ∧ sampleWriteAnswered (streamingIn .alaw [.ok]) 0 .ok ∧
    sampleWriteAnswered (framing 79 [tenBytes] [.ok]) 0 .ok ∧ sampleWriteAnswered (framing 79 [[1]] [.fail 1]) 0 (.fail 1) ∧
    got (step (withWord (streamingIn .alaw []) 0x40000000)) (·.runState) = some .done ∧
    got (step (withWord (framing 0 [] []) 0x40000000)) (·.runState) = some .done ∧
    got (step (withWord (framing 79 [[1]] [.fail 1]) 0x40000000)) (·.err) = some .sinkWrite ∧
    got (step (withWord (framing 79 [] []) 0x50000000)) (·.err) = some .sourceRead ∧
    got (step (withWord (withCancel (framing 79 [] [])) 0x60000000)) (·.err) = some .cancelled ∧
    got (step (withWord errorState 0x10000000)) (·.runState) = some .error := by decide

theorem witness_FormatFixedForTheRun :
    (got (step (withWord (idleIn .alaw) 0x20000000)) (·.fmtCode) = some .alaw ∧
      (withWord (idleIn .alaw) 0x20000000).hostIn = .word (encode .start) :: []) ∧
    (errorState.runState ≠ .idle ∧ got (step (withWord errorState 0x10000000)) (·.fmtCode) = some .frame) ∧
    doneState.runState ≠ .idle ∧ doneState.runState ≠ .error := by decide

theorem witness_ResetInputEndsRun :
    ({ framing 79 [] [] with hostIn := [.reset] } : State).hostIn = .reset :: [] ∧
    ({ errorState with hostIn := [.reset] } : State).hostIn = .reset :: [] := by decide

theorem witness_StatusPortFields :
    statusRead 1 errorState = 5 ∧ statusRead 2 errorState = 0 ∧ runOk doneState = true ∧ runFail errorState = true := by decide

theorem witness_ErrorEntryWrites :
    (framing 0 [] []).sess = .opened ∧ State.reset.sess ≠ .opened ∧ errorState.sess ≠ .opened := by decide

theorem witness_CfgSelectsFormat :
    State.reset.runState = .idle ∧ (idleIn .frame).runState = .idle ∧ (streamingIn .mulaw []).runState = .streaming ∧
    doneState.runState = .done := by decide

theorem witness_StartBeginsRun :
    (State.reset.runState = .idle ∧ idleClean State.reset ∧ State.reset.fmtCfgd = false) ∧
    (idleClean (idleIn .pcm16le) ∧ (idleIn .pcm16le).fmtCfgd = true ∧ (idleIn .pcm16le).fmtCode ≠ .frame) ∧
    (idleClean (idleIn .frame) ∧ (idleIn .frame).fmtCfgd = true ∧ (idleIn .frame).fmtCode = .frame) ∧
    (framing 0 [] []).runState = .streaming ∧ doneState.runState = .done ∧
    openAnswer { idleIn .frame with openIn := [.ok] } = .ok ∧
    openAnswer { idleIn .frame with openIn := [.fail 0xFFFF] } = .fail 0xFFFF := by decide

theorem witness_SrcerrEntersError :
    ((framing 79 [] []).runState = .streaming ∧ (framing 79 [] []).sess = .opened) ∧
    ((streamingIn .alaw []).runState = .streaming ∧ (streamingIn .alaw []).sess ≠ .opened) ∧
    State.reset.runState = .idle ∧ doneState.runState = .done := by decide

theorem witness_CancelEntersError :
    ((withCancel (framing 79 [] [])).hasCancel = true ∧ (withCancel (framing 79 [] [])).runState = .streaming ∧
      (withCancel (framing 79 [] [])).sess = .opened) ∧
    ((withCancel (streamingIn .alaw [])).hasCancel = true ∧ (withCancel (streamingIn .alaw [])).sess ≠ .opened) ∧
    ((framing 0 [] []).runState = .streaming ∧ (framing 0 [] []).hasCancel = false) := by decide

theorem witness_CompandedSampleWritesOneByte :
    ((streamingIn .mulaw [.ok]).runState = .streaming ∧ streamingOpen (streamingIn .mulaw [.ok]) ∧
      (streamingIn .mulaw [.ok]).fmtCode = .mulaw ∧ sinkAnswer (streamingIn .mulaw [.ok]) [encodeMulaw 0x8000] = .ok) ∧
    (streamingOpen (streamingIn .alaw [.fail 0]) ∧ (streamingIn .alaw [.fail 0]).fmtCode = .alaw ∧
      sinkAnswer (streamingIn .alaw [.fail 0]) [encodeAlaw 0x7FFF] = .fail 0) := by decide

theorem witness_PcmSampleWritesTwoBytes :
    ((streamingIn .pcm16le [.ok]).runState = .streaming ∧ streamingOpen (streamingIn .pcm16le [.ok]) ∧
      (streamingIn .pcm16le [.ok]).fmtCode = .pcm16le ∧ sinkAnswer (streamingIn .pcm16le [.ok]) [0x00, 0x80] = .ok) ∧
    sinkAnswer (streamingIn .pcm16le [.fail 9]) [0xFF, 0x7F] = .fail 9 := by decide

theorem witness_FrameSampleStores :
    ((framing 0 [] []).runState = .streaming ∧ (framing 0 [] []).fmtCode = .frame ∧ (framing 0 [] []).fcnt.toNat < 79) ∧
    (framing 78 [] []).fcnt.toNat < 79 := by decide

theorem witness_FrameSampleCompletes :
    ((framing 79 [[]] []).runState = .streaming ∧ (framing 79 [[]] []).fmtCode = .frame ∧
      (framing 79 [[]] []).sess = .opened ∧ (framing 79 [[]] []).fcnt = 79) ∧
    (unitAnswer (framing 79 [[]] []) someFrame).length = 0 ∧
    10 < (unitAnswer (framing 79 [11 :: tenBytes] []) someFrame).length ∧
    (1 ≤ (unitAnswer (framing 79 [[1]] [.ok]) someFrame).length ∧
      sinkAnswer (afterUnit (framing 79 [[1]] [.ok])) [1] = .ok) ∧
    ((unitAnswer (framing 79 [tenBytes] [.fail 2]) someFrame).length ≤ 10 ∧
      sinkAnswer (afterUnit (framing 79 [tenBytes] [.fail 2])) tenBytes = .fail 2) := by decide

theorem witness_EosWithoutFrames :
    (streamingIn .alaw []).runState = .streaming ∧ (streamingIn .alaw []).fmtCode ≠ .frame := by decide

set_option maxRecDepth 2000 in
/-- The padded frame is the one the hypothesis names, with 1 and with 79 samples buffered. -/
theorem witness_EosFlushesFrame :
    ((framing 0 [] []).runState = .streaming ∧ (framing 0 [] []).fmtCode = .frame ∧ (framing 0 [] []).sess = .opened ∧
      (framing 0 [] []).fcnt = 0) ∧
    ((framing 79 [[]] []).fcnt ≠ 0 ∧ (unitAnswer (framing 79 [[]] []) someFrame).length = 0) ∧
    ((framing 1 [tenBytes] [.ok]).fcnt ≠ 0 ∧ (unitAnswer (framing 1 [tenBytes] [.ok]) someFrame).length = 10 ∧
      sinkAnswer (afterUnit (framing 1 [tenBytes] [.ok])) tenBytes = .ok) ∧
    sinkAnswer (afterUnit (framing 1 [[1]] [.fail 4])) [1] = .fail 4 ∧
    ∀ i : Fin 80, ((Vector.replicate 80 0).setIfInBounds 0 1 : Frame)[i.val] =
      if i.val < (framing 1 [] []).fcnt.toNat then (framing 1 [] []).fbuf[i.val] else 0 := by decide

/-- A next state of every command, and one in each clause's case. -/
theorem witness_CommandFrame :
    (got (exec (.cfg .frame) State.reset) (·.runState)).isSome ∧
    (got (exec .start (idleIn .mulaw)) (·.runState)).isSome ∧
    (got (exec (.sample 0) (streamingIn .alaw [.fail 1])) (·.runState)).isSome ∧
    (got (exec (.sample 0) (framing 79 [[1]] [.ok])) (·.runState)).isSome ∧
    (got (exec .eos (framing 79 [[1]] [.ok])) (·.runState)).isSome ∧
    (got (exec (.srcerr 0) (framing 3 [] [])) (·.runState)).isSome ∧
    (got (exec .cancel (withCancel (framing 3 [] []))) (·.runState)).isSome ∧
    (got (exec .eos errorState) (·.runState)).isSome := by decide

theorem witness_OutputGrowsByWholeUnits :
    got (step (withWord (streamingIn .mulaw [.ok]) 0x30000000)) (fun t => (t.obs.out.length, t.obs.nwrites)) = some (1, 1) ∧
    got (step (withWord (streamingIn .pcm16le [.ok]) 0x30000000)) (fun t => (t.obs.out.length, t.obs.nwrites)) = some (2, 1) ∧
    got (step (withWord (framing 79 [tenBytes] [.ok]) 0x30000000)) (fun t => (t.obs.out.length, t.obs.nwrites)) =
      some (10, 1) := by decide

theorem witness_EncodesOnlyWhileOpen :
    BoundaryInv (framing 79 [[1]] [.ok]) ∧
    (got (exec (.sample 0) (framing 79 [[1]] [.ok])) fun t => (encodedFrames t.obs.encLog).length) = some 1 := by decide

theorem witness_PartialFrameLostOnlyByAbort :
    BoundaryInv (framing 79 [] []) ∧ (framing 79 [] []).runState ≠ .error ∧
    got (exec (.srcerr 5) (framing 79 [] [])) (fun t => (t.runState, t.fcnt)) = some (.error, 79) := by decide

theorem witness_PartialFrameLostOnlyByAbort_cancel :
    BoundaryInv (withCancel (framing 1 [] [])) ∧ (withCancel (framing 1 [] [])).runState ≠ .error ∧
    got (exec .cancel (withCancel (framing 1 [] []))) (fun t => (t.runState, t.fcnt)) = some (.error, 1) := by decide

theorem witness_InitErrorBeforeAnyWrite :
    BoundaryInv { withWord (idleIn .frame) 0x20000000 with openIn := [.fail 1] } ∧
    idleUnwritten { withWord (idleIn .frame) 0x20000000 with openIn := [.fail 1] } ∧
    (idleIn .frame).err ≠ .encoderInit ∧
    got (step { withWord (idleIn .frame) 0x20000000 with openIn := [.fail 1] }) (·.err) = some .encoderInit := by decide

theorem witness_StepKeepsBoundaryInv :
    BoundaryInv (withWord (framing 79 [[1]] [.fail 1]) 0x30000000) ∧
    got (step (withWord (framing 79 [[1]] [.fail 1]) 0x30000000)) (·.runState) = some .error := by decide

theorem witness_StepKeepsBoundaryInv_draining :
    BoundaryInv (withWord (framing 79 [[1]] [.ok]) 0x40000000) ∧
    got (step (withWord (framing 79 [[1]] [.ok]) 0x40000000)) (·.runState) = some .done := by decide

/-- The boundary invariants in the other states a boundary shows. -/
theorem witness_boundary_states :
    BoundaryInv (withWord State.reset 0x10000000) ∧ BoundaryInv (withWord errorState 0) ∧ BoundaryInv doneState :=
  ⟨by decide, by decide, by decide⟩

theorem witness_StepKeepsEncoderLog :
    BoundaryInv (withWord (framing 79 [[1]] [.fail 1]) 0x30000000) ∧
    EncoderLogInv (withWord (framing 79 [[1]] [.fail 1]) 0x30000000) ∧
    got (step (withWord (framing 79 [[1]] [.fail 1]) 0x30000000)) (·.sess) = some .closed := by
  refine ⟨by decide, ⟨?_, by decide, by decide⟩, by decide⟩
  show [EncCall.open_] = sessionLog (encodedFrames [EncCall.open_]) false
  decide

theorem witness_SegmentSearchClosedForm : (1 : Nat) ≤ 1 ∧ segsearch 255 = 7 := by decide

theorem witness_MulawSegmentRanges :
    ulawSeg (asU16 123) = 0 ∧ ulawSeg (asU16 124) = 1 ∧ ulawSeg (asU16 (-16251)) = 6 ∧ ulawSeg (asU16 16252) = 7 ∧
    ulawSeg (asU16 (-32768)) = 7 := by decide

theorem witness_AlawSegmentRanges :
    alawSeg (asU16 255) = 0 ∧ alawSeg (asU16 256) = 1 ∧ alawSeg (asU16 (-16383)) = 6 ∧ alawSeg (asU16 16384) = 7 := by decide

theorem witness_MulawByteLayout : 0 ≤ (asU16 0).toInt ∧ (asU16 (-1)).toInt < 0 := by decide

theorem witness_AlawByteLayout : 0 ≤ (asU16 32767).toInt ∧ (asU16 (-32768)).toInt < 0 := by decide

theorem witness_PolaritySymmetry : 1 ≤ (asU16 1).toInt ∧ 1 ≤ (asU16 32767).toInt := by decide

theorem witness_CompandersMonotone :
    0 ≤ (asU16 0).toInt ∧ (asU16 0).toInt ≤ (asU16 32767).toInt ∧ (asU16 0).toInt ≤ (asU16 0).toInt := by decide

theorem witness_SampleStreamOutput :
    Fresh State.reset ∧ Format.pcm16le ≠ .frame ∧
    ({ State.reset with sinkIn := [.ok, .ok] } : State).sinkIn.take 2 = List.replicate 2 .ok ∧
    got (runCommands (streamCommands .alaw [1000, 0]) { State.reset with sinkIn := [.ok, .ok] })
      (fun t => (t.runState, t.obs.out)) = some (.done, [0xFA, 0xD5]) := by decide

theorem witness_FrameStreamAlignment :
    Fresh { State.reset with openIn := [.ok], encIn := [[7]], sinkIn := [.ok] } ∧
    got (runCommands (streamCommands .frame [1]) { State.reset with openIn := [.ok], encIn := [[7]], sinkIn := [.ok] })
      (fun t => (t.runState, t.obs.out)) = some (.done, [7]) := by decide

/-- Streams of 0, 1, 80 and 81 samples need 0, 1, 1 and 2 units. -/
theorem witness_FrameStreamCompletes :
    let s : State := { State.reset with openIn := [.ok], encIn := [tenBytes, [1]], sinkIn := [.ok, .ok] }
    Fresh s ∧ s.openIn.head? = some .ok ∧
    (([] : List (List Byte)).length = frameCount 0 ∧ [tenBytes].length = frameCount 1 ∧
      [tenBytes].length = frameCount 80 ∧ [tenBytes, [1]].length = frameCount 81) ∧
    s.encIn.take 2 = [tenBytes, [1]] ∧ (∀ u ∈ [tenBytes, [1]], 1 ≤ u.length ∧ u.length ≤ 10) ∧
    s.sinkIn.take 2 = List.replicate 2 .ok := by decide

theorem witness_PcmRoundTrip :
    Fresh { State.reset with sinkIn := [.ok] } ∧
    got (runCommands (streamCommands .pcm16le [0x8000]) { State.reset with sinkIn := [.ok] })
      (fun t => (t.runState, t.obs.out)) = some (.done, [0x00, 0x80]) := by decide

theorem witness_SinkFailurePropagates :
    (Fresh { State.reset with sinkIn := [.fail 1] } ∧ 0 < [(5 : Sample)].length ∧
      ({ State.reset with sinkIn := [.fail 1] } : State).sinkIn.take 1 = List.replicate 0 .ok ++ [.fail 1]) ∧
    (let s : State := { State.reset with openIn := [.ok], encIn := [tenBytes, [1]], sinkIn := [.ok, .fail 1] }
     Fresh s ∧ s.openIn.head? = some .ok ∧ 1 < frameCount 81 ∧ [tenBytes, [1]].length = 1 + 1 ∧
      s.encIn.take 2 = [tenBytes, [1]] ∧ (∀ u ∈ [tenBytes, [1]], 1 ≤ u.length ∧ u.length ≤ 10) ∧
      s.sinkIn.take 2 = List.replicate 1 .ok ++ [.fail 1]) := by decide

theorem witness_EmptyFrameRun :
    Fresh { State.reset with openIn := [.ok] } ∧ openAnswer { State.reset with openIn := [.ok] } = .ok := by decide

end Sys2Proof.Tests
end

/-! ### The boundary invariants (10_state.md R43): how each run state meets them, and that every step keeps them -/

namespace Sys2Proof.Machine

/-! #### What is left to show of the six items in each run state -/

theorem boundaryInv_of_idle {s : State} (hrun : s.runState = .idle) (hsess : s.sess = .none) (hcnt : s.fcnt = 0)
    (herr : s.err = .none) : BoundaryInv s := by
  refine ⟨by simp [hrun], fun _ => ⟨hsess, hcnt, herr⟩, by simp [hrun], by simp [hrun], by simp [hrun], ?_, ?_⟩ <;>
    simp [hcnt]

theorem boundaryInv_of_streaming {s : State} (hrun : s.runState = .streaming) (hopen : streamingOpen s)
    (hpart : s.fcnt ≠ 0 → s.fmtCode = .frame) (hcnt : countInRange s) : BoundaryInv s := by
  refine ⟨by simp [hrun], by simp [hrun], hopen, by simp [hrun], by simp [hrun], ?_, hcnt⟩
  exact fun h => ⟨hpart h, .inl hrun⟩

theorem boundaryInv_of_done {s : State} (hrun : s.runState = .done) (hframe : s.fmtCode = .frame → s.sess = .closed)
    (hother : s.fmtCode ≠ .frame → s.sess = .none) (hcnt : s.fcnt = 0) (herr : s.err = .none) : BoundaryInv s := by
  refine ⟨by simp [hrun], by simp [hrun], by simp [hrun], fun _ => ⟨hframe, hother, hcnt, herr⟩, by simp [hrun], ?_, ?_⟩ <;>
    simp [hcnt]

theorem boundaryInv_of_error {s : State} (hrun : s.runState = .error) (herr : s.err ≠ .none) (hsess : s.sess ≠ .opened)
    (hpart : s.fcnt ≠ 0 → s.fmtCode = .frame) (hcnt : countInRange s) : BoundaryInv s := by
  refine ⟨by simp [hrun], by simp [hrun], by simp [hrun], by simp [hrun], fun _ => ⟨herr, hsess⟩, ?_, hcnt⟩
  exact fun h => ⟨hpart h, .inr hrun⟩

/-- A partial frame needs FRAME, in whatever state the run is. -/
theorem BoundaryInv.frame_of_partial {s : State} (hs : BoundaryInv s) (h : s.fcnt ≠ 0) : s.fmtCode = .frame := by
  obtain ⟨-, -, -, -, -, hpart, -⟩ := hs
  exact (hpart h).1

theorem BoundaryInv.count_eq_zero {s : State} (hs : BoundaryInv s) (h : s.fmtCode ≠ .frame) : s.fcnt = 0 :=
  of_not_not fun hne => h (hs.frame_of_partial hne)

theorem BoundaryInv.countInRange {s : State} (hs : BoundaryInv s) : countInRange s := by
  obtain ⟨-, -, -, -, -, -, hcnt⟩ := hs
  exact hcnt

theorem BoundaryInv.streamingOpen {s : State} (hs : BoundaryInv s) : streamingOpen s := by
  obtain ⟨-, -, hopen, -⟩ := hs
  exact hopen

theorem BoundaryInv.idleClean {s : State} (hs : BoundaryInv s) : idleClean s := by
  obtain ⟨-, hidle, -⟩ := hs
  exact hidle

/-! #### Operations that may fail: the run goes on as it was, or is in Error with the session released -/

/-- `t` has the STATE, SESS and ERR of `s`, or those that error entry leaves (60_exceptions.md R215). -/
def KeptOrFailed (s t : State) : Prop :=
  (t.runState = s.runState ∧ t.sess = s.sess ∧ t.err = s.err) ∨
    (t.runState = .error ∧ t.sess ≠ .opened ∧ t.err ≠ .none)

theorem emitUnit_keptOrFailed (u : List Byte) (s : State) : KeptOrFailed s (emitUnit u s) := by
  rcases emitUnit_cases u s with ⟨_, h⟩ | ⟨c, _, h⟩ <;> rw [h]
  · exact .inl (by simp)
  · exact .inr ⟨by simp, enterError_sess_ne_opened _ _ _, by simp⟩

theorem frameCycle_keptOrFailed (f : Frame) (s : State) : KeptOrFailed s (frameCycle f s) := by
  rcases frameCycle_cases f s with ⟨_, h⟩ | ⟨_, h⟩ <;> rw [h]
  · simpa [KeptOrFailed] using emitUnit_keptOrFailed (unitAnswer s f) (afterUnit (countFrame (logCall (.encode f) s)))
  · exact .inr ⟨by simp, enterError_sess_ne_opened _ _ _, by simp⟩

theorem fbPush_keptOrFailed (x : Sample) (s : State) : KeptOrFailed s (fbPush x s) := by
  rcases fbPush_cases x s with ⟨_, h⟩ | ⟨_, h⟩ <;> rw [h]
  · exact frameCycle_keptOrFailed _ (clearCount (fbStore x s))
  · exact .inl (by simp)

theorem fbFlush_keptOrFailed (s : State) : KeptOrFailed s (fbFlush s) := by
  rcases fbFlush_cases s with ⟨_, h⟩ | ⟨_, h⟩ <;> rw [h]
  · exact .inl ⟨rfl, rfl, rfl⟩
  · simpa [KeptOrFailed, fbHandoff] using frameCycle_keptOrFailed (padBuffer s).fbuf (clearCount (padBuffer s))

/-- A push below the 80th sample counts it, the 80th clears the count: FCNT stays in 0..79 (R34). -/
theorem fbPush_countInRange (x : Sample) {s : State} (hs : countInRange s) : countInRange (fbPush x s) := by
  rcases fbPush_cases x s with ⟨_, h⟩ | ⟨hne, h⟩ <;> rw [h]
  · simp [fbHandoff]
  · have hne' : (s.fcnt + 1).toNat ≠ 80 := fun h80 => hne (BitVec.eq_of_toNat_eq h80)
    simp only [countInRange, fbStore_fcnt]
    bv_omega

/-- An operation of a Streaming run that may fail keeps the invariants if it keeps the format and the count is sound. -/
theorem boundaryInv_of_keptOrFailed {s t : State} (hs : BoundaryInv s) (hrun : s.runState = .streaming)
    (hcfgd : t.fmtCfgd = s.fmtCfgd) (hcode : t.fmtCode = s.fmtCode) (hpart : t.fcnt ≠ 0 → t.fmtCode = .frame)
    (hcnt : countInRange t) (h : KeptOrFailed s t) : BoundaryInv t := by
  rcases h with ⟨hr, hsess, herr⟩ | ⟨hr, hsess, herr⟩
  · refine boundaryInv_of_streaming (hr.trans hrun) (fun _ => ?_) hpart hcnt
    simpa only [hcfgd, hcode, hsess, herr] using hs.streamingOpen hrun
  · exact boundaryInv_of_error hr herr hsess hpart hcnt

/-! #### The effects of the commands -/

theorem enterError_boundaryInv {s : State} (hs : BoundaryInv s) {k : ErrKind} (hk : k ≠ .none) (c : Cause) :
    BoundaryInv (enterError k c s) :=
  boundaryInv_of_error (enterError_runState k c s) (by simpa using hk) (enterError_sess_ne_opened k c s)
    (by simpa using hs.frame_of_partial) (by simpa using hs.countInRange)

theorem selectFormat_boundaryInv {s : State} (hs : BoundaryInv s) (hrun : s.runState = .idle) (f : Format) :
    BoundaryInv (selectFormat f s) := by
  obtain ⟨hsess, hcnt, herr⟩ := hs.idleClean hrun
  exact boundaryInv_of_idle hrun hsess hcnt herr

theorem beginRun_boundaryInv {s : State} (hs : BoundaryInv s) (hrun : s.runState = .idle) (hcfgd : s.fmtCfgd = true) :
    BoundaryInv (beginRun s) := by
  obtain ⟨hsess, hcnt, herr⟩ := hs.idleClean hrun
  by_cases hf : s.fmtCode = .frame
  · rw [beginRun_frame hf]
    rcases encOpen_cases s with ⟨_, h⟩ | ⟨c, _, h⟩ <;> rw [h]
    · have hne : (setSess .opened (afterOpen (logCall .open_ s))).runState ≠ .error := by simp [hrun]
      rw [afterOpening, if_neg hne]
      exact boundaryInv_of_streaming rfl (by simp [hcfgd, hf, herr]) (by simp [hcnt]) (by simp [hcnt])
    · rw [afterOpening, if_pos (enterError_runState _ _ _)]
      exact boundaryInv_of_error (enterError_runState _ _ _) (by simp) (enterError_sess_ne_opened _ _ _)
        (by simp [hcnt]) (by simp [hcnt])
  · rw [beginRun_not_frame hf]
    exact boundaryInv_of_streaming rfl (by simp [hcfgd, hf, hsess, herr]) (by simp [hcnt]) (by simp [hcnt])

theorem takeSample_boundaryInv {s : State} (hs : BoundaryInv s) (hrun : s.runState = .streaming) (x : Sample) :
    BoundaryInv (takeSample x s) := by
  by_cases hf : s.fmtCode = .frame
  · rw [takeSample_frame hf]
    exact boundaryInv_of_keptOrFailed hs hrun (by simp) (by simp) (by simp [hf])
      (fbPush_countInRange x hs.countInRange) (fbPush_keptOrFailed x (countSample s))
  · rw [takeSample_not_frame hf]
    have hcnt := hs.count_eq_zero hf
    exact boundaryInv_of_keptOrFailed hs hrun (by simp) (by simp) (by simp [hcnt]) (by simp [hcnt])
      (emitUnit_keptOrFailed _ (countSample s))

theorem endStream_boundaryInv {s : State} (hs : BoundaryInv s) (hrun : s.runState = .streaming) :
    BoundaryInv (endStream s) := by
  obtain ⟨-, hopen, hnone, herr⟩ := hs.streamingOpen hrun
  by_cases hf : s.fmtCode = .frame
  · rw [endStream_frame hf]
    rcases fbFlush_keptOrFailed (setRun .draining s) with ⟨hr, hsess, he⟩ | ⟨hr, hsess, he⟩
    · rw [afterDraining, if_neg (by simp [hr])]
      refine boundaryInv_of_done rfl (fun _ => ?_) (by simp [hf]) (by simp) (by simpa [herr] using he)
      simp [hsess, hopen hf]
    · rw [afterDraining, if_pos hr]
      exact boundaryInv_of_error hr he hsess (by simp) (by simp)
  · rw [endStream_not_frame hf]
    exact boundaryInv_of_done rfl (by simp [hf]) (fun _ => hnone hf) (hs.count_eq_zero hf) herr

theorem effectOf_boundaryInv {s : State} {i : Instr} (hs : BoundaryInv s) (hl : legal s i = true) :
    BoundaryInv (effectOf i s) := by
  cases i <;> simp only [legal, Bool.and_eq_true, decide_eq_true_eq] at hl
  case cfg f => exact selectFormat_boundaryInv hs hl f
  case start =>
    obtain ⟨hrun, hcfgd⟩ := hl
    exact beginRun_boundaryInv hs hrun hcfgd
  case sample x => exact takeSample_boundaryInv hs hl x
  case eos => exact endStream_boundaryInv hs hl
  case srcerr c => exact enterError_boundaryInv hs (by simp) c
  case cancel => exact enterError_boundaryInv hs (by simp) 0

/-! #### The step -/

theorem exec_boundaryInv {s t : State} {i : Instr} (hs : BoundaryInv s) (h : exec i s = .next t) : BoundaryInv t := by
  rcases exec_next h with ⟨_, rfl⟩ | ⟨_, hl, rfl⟩
  · exact hs
  · exact effectOf_boundaryInv hs hl

theorem resetInput_boundaryInv (s : State) : BoundaryInv (resetInput s) := boundaryInv_of_idle rfl rfl rfl rfl

/-- Settles O39, by what a step can do: it waits, resets, consumes a word in Error, or executes a command, whose effect keeps
the invariants where the command is legal. -/
theorem stepKeepsBoundaryInv : Obligations.StepKeepsBoundaryInv := by
  intro s t hs h
  rcases step_next h with ⟨_, rfl⟩ | ⟨rest, _, rfl⟩ | ⟨w, rest, _, _, rfl⟩ | ⟨w, rest, i, _, _, _, hexec⟩
  · exact hs
  · exact resetInput_boundaryInv _
  · exact hs
  · exact exec_boundaryInv (s := { s with hostIn := rest }) hs hexec

end Sys2Proof.Machine

/-! ### The observation is never read (10_state.md R47): every operation respects equality of the hardware -/

namespace Sys2Proof.Machine

/-- What can be read off the hardware is the same in states with the same hardware. -/
theorem eq_of_hardware_eq {α : Type} (read : State → α) (hread : ∀ s, read (hardware s) = read s) {s t : State}
    (h : hardware t = hardware s) : read t = read s := by
  rw [← hread t, h, hread s]

/-- What `f` does to the hardware is decided by the hardware: no record of the observation enters into it (R47). -/
def RespectsHardware (f : State → State) : Prop :=
  ∀ ⦃s t : State⦄, hardware t = hardware s → hardware (f t) = hardware (f s)

theorem RespectsHardware.comp {f g : State → State} (hg : RespectsHardware g) (hf : RespectsHardware f) :
    RespectsHardware fun s => g (f s) :=
  fun _ _ h => hg (hf h)

theorem RespectsHardware.of_commutes {f : State → State} (h : ∀ s, hardware (f s) = f (hardware s)) :
    RespectsHardware f :=
  fun s t e => by rw [h t, h s, e]

/-- An operation that chooses by a condition on the hardware between two operations that respect it respects it too. -/
theorem RespectsHardware.of_cases {p : State → Prop} (hp : ∀ s, p (hardware s) ↔ p s) {e f g : State → State}
    (hpos : ∀ s, p s → e s = f s) (hneg : ∀ s, ¬ p s → e s = g s) (hf : RespectsHardware f) (hg : RespectsHardware g) :
    RespectsHardware e := by
  intro s t h
  have hiff : p t ↔ p s := by rw [← hp t, h, hp s]
  by_cases hs : p s
  · rw [hpos s hs, hpos t (hiff.2 hs)]
    exact hf h
  · rw [hneg s hs, hneg t fun ht => hs (hiff.1 ht)]
    exact hg h

/-! #### The named updates -/

theorem id_respectsHardware : RespectsHardware fun s => s := fun _ _ h => h

theorem appendOut_respectsHardware (u : List Byte) : RespectsHardware (appendOut u) := fun _ _ h => h
theorem logCall_respectsHardware (c : EncCall) : RespectsHardware (logCall c) := fun _ _ h => h
theorem countSample_respectsHardware : RespectsHardware countSample := fun _ _ h => h
theorem countFrame_respectsHardware : RespectsHardware countFrame := fun _ _ h => h
theorem countWrite_respectsHardware : RespectsHardware countWrite := fun _ _ h => h

theorem setRun_respectsHardware (r : RunState) : RespectsHardware (setRun r) := .of_commutes fun _ => rfl
theorem setSess_respectsHardware (k : Session) : RespectsHardware (setSess k) := .of_commutes fun _ => rfl
theorem clearCount_respectsHardware : RespectsHardware clearCount := .of_commutes fun _ => rfl
theorem recordError_respectsHardware (k : ErrKind) (c : Cause) : RespectsHardware (recordError k c) :=
  .of_commutes fun _ => rfl
theorem selectFormat_respectsHardware (f : Format) : RespectsHardware (selectFormat f) := .of_commutes fun _ => rfl
theorem fbStore_respectsHardware (x : Sample) : RespectsHardware (fbStore x) := .of_commutes fun _ => rfl
theorem padBuffer_respectsHardware : RespectsHardware padBuffer :=
  .of_commutes fun _ => by simp only [padBuffer, hardware]

theorem afterSink_respectsHardware : RespectsHardware afterSink :=
  .of_commutes fun s => by cases h : s.sinkIn <;> simp [afterSink, hardware, h]
theorem afterOpen_respectsHardware : RespectsHardware afterOpen :=
  .of_commutes fun s => by cases h : s.openIn <;> simp [afterOpen, hardware, h]
theorem afterUnit_respectsHardware : RespectsHardware afterUnit :=
  .of_commutes fun s => by cases h : s.encIn <;> simp [afterUnit, hardware, h]

/-! #### The shared operations -/

theorem sessionRelease_respectsHardware : RespectsHardware sessionRelease :=
  .of_cases (p := fun s => s.sess = .opened) (fun _ => .rfl) (fun _ => sessionRelease_opened)
    (fun _ => sessionRelease_not_opened) ((setSess_respectsHardware _).comp (logCall_respectsHardware _))
    id_respectsHardware

theorem enterError_respectsHardware (k : ErrKind) (c : Cause) : RespectsHardware (enterError k c) :=
  sessionRelease_respectsHardware.comp (recordError_respectsHardware k c)

/-- The reset input reads the parameter, the inputs and the draw counter, all of them hardware (R240). -/
theorem resetInput_respectsHardware : RespectsHardware resetInput := by
  intro s t h
  simp only [hardware, State.mk.injEq] at h
  simp [resetInput, hardware, h]

theorem finishWrite_respectsHardware (a : Answer) (u : List Byte) : RespectsHardware (finishWrite a u) := by
  cases a with
  | ok => exact appendOut_respectsHardware u
  | fail c => exact enterError_respectsHardware .sinkWrite c

theorem emitUnit_respectsHardware (u : List Byte) : RespectsHardware (emitUnit u) := by
  intro s t h
  have hans := eq_of_hardware_eq (sinkAnswer · u) (fun _ => sinkAnswer_congr rfl rfl u) h
  rw [emitUnit, emitUnit, hans]
  exact finishWrite_respectsHardware _ u (afterSink_respectsHardware.comp countWrite_respectsHardware h)

theorem finishOpen_respectsHardware (a : Answer) : RespectsHardware (finishOpen a) := by
  cases a with
  | ok => exact setSess_respectsHardware .opened
  | fail c => exact enterError_respectsHardware .encoderInit c

theorem encOpen_respectsHardware : RespectsHardware encOpen := by
  intro s t h
  have hans := eq_of_hardware_eq openAnswer (fun _ => openAnswer_congr rfl rfl) h
  rw [encOpen, encOpen, hans]
  exact finishOpen_respectsHardware _ (afterOpen_respectsHardware.comp (logCall_respectsHardware .open_) h)

theorem finishCycle_respectsHardware (u : List Byte) : RespectsHardware (finishCycle u) :=
  .of_cases (p := fun _ => unitLengthOk u = true) (fun _ => .rfl) (fun _ h => if_pos h) (fun _ h => if_neg h)
    (emitUnit_respectsHardware u) (enterError_respectsHardware _ _)

theorem frameCycle_respectsHardware (f : Frame) : RespectsHardware (frameCycle f) := by
  intro s t h
  have hans := eq_of_hardware_eq (unitAnswer · f) (fun _ => unitAnswer_congr rfl rfl f) h
  rw [frameCycle, frameCycle, hans]
  exact finishCycle_respectsHardware _
    (afterUnit_respectsHardware.comp (countFrame_respectsHardware.comp (logCall_respectsHardware (.encode f))) h)

/-! #### The frame buffer -/

theorem fbHandoff_respectsHardware : RespectsHardware fbHandoff := by
  intro s t h
  have hbuf := eq_of_hardware_eq State.fbuf (fun _ => rfl) h
  rw [fbHandoff, fbHandoff, hbuf]
  exact (frameCycle_respectsHardware s.fbuf).comp clearCount_respectsHardware h

theorem fbPush_respectsHardware (x : Sample) : RespectsHardware (fbPush x) :=
  .of_cases (p := fun s => (fbStore x s).fcnt = fullCount) (fun _ => .rfl) (fun _ h => if_pos h) (fun _ h => if_neg h)
    (fbHandoff_respectsHardware.comp (fbStore_respectsHardware x)) (fbStore_respectsHardware x)

theorem fbFlush_respectsHardware : RespectsHardware fbFlush :=
  .of_cases (p := fun s => s.fcnt = 0) (fun _ => .rfl) (fun _ h => if_pos h) (fun _ h => if_neg h)
    id_respectsHardware (fbHandoff_respectsHardware.comp padBuffer_respectsHardware)

/-! #### The effects of the commands -/

theorem afterOpening_respectsHardware : RespectsHardware afterOpening :=
  .of_cases (p := fun s => s.runState = .error) (fun _ => .rfl) (fun _ h => if_pos h) (fun _ h => if_neg h)
    id_respectsHardware (setRun_respectsHardware .streaming)

theorem afterDraining_respectsHardware : RespectsHardware afterDraining :=
  .of_cases (p := fun s => s.runState = .error) (fun _ => .rfl) (fun _ h => if_pos h) (fun _ h => if_neg h)
    id_respectsHardware ((setRun_respectsHardware .done).comp sessionRelease_respectsHardware)

theorem beginRun_respectsHardware : RespectsHardware beginRun :=
  .of_cases (p := fun s => s.fmtCode = .frame) (fun _ => .rfl) (fun _ => beginRun_frame) (fun _ => beginRun_not_frame)
    (afterOpening_respectsHardware.comp encOpen_respectsHardware) (setRun_respectsHardware .streaming)

/-- The unit of a sample is chosen by FMT.CODE, which is hardware. -/
theorem emitSampleUnit_respectsHardware (x : Sample) :
    RespectsHardware fun s => emitUnit (sampleUnit s.fmtCode x) (countSample s) := by
  intro s t h
  have hcode := eq_of_hardware_eq State.fmtCode (fun _ => rfl) h
  simp only [hcode]
  exact (emitUnit_respectsHardware _).comp countSample_respectsHardware h

theorem takeSample_respectsHardware (x : Sample) : RespectsHardware (takeSample x) :=
  .of_cases (p := fun s => s.fmtCode = .frame) (fun _ => .rfl) (fun _ h => takeSample_frame h x)
    (fun _ h => takeSample_not_frame h x) ((fbPush_respectsHardware x).comp countSample_respectsHardware)
    (emitSampleUnit_respectsHardware x)

theorem endStream_respectsHardware : RespectsHardware endStream :=
  .of_cases (p := fun s => s.fmtCode = .frame) (fun _ => .rfl) (fun _ => endStream_frame) (fun _ => endStream_not_frame)
    (afterDraining_respectsHardware.comp (fbFlush_respectsHardware.comp (setRun_respectsHardware .draining)))
    (setRun_respectsHardware .done)

theorem effectOf_respectsHardware (i : Instr) : RespectsHardware (effectOf i) := by
  cases i with
  | cfg f => exact selectFormat_respectsHardware f
  | start => exact beginRun_respectsHardware
  | sample x => exact takeSample_respectsHardware x
  | eos => exact endStream_respectsHardware
  | srcerr c => exact enterError_respectsHardware .sourceRead c
  | cancel => exact enterError_respectsHardware .cancelled 0

/-! #### Outcomes -/

/-- The two outcomes are the same but for the observation: next states with the same hardware, or the same reason to stop. -/
def SameOutcome (a b : Host.Outcome State Fault Refusal) : Prop :=
  match a with
  | .next t => ∃ t', b = .next t' ∧ hardware t' = hardware t
  | .fault r => b = .fault r
  | .refused r => b = .refused r

theorem sameOutcome_next {s t : State} (h : hardware t = hardware s) : SameOutcome (.next s) (.next t) := ⟨t, rfl, h⟩

theorem sameOutcome_fault (r : Fault) : SameOutcome (.fault r) (.fault r) := rfl

theorem legal_congr {s t : State} (h : hardware t = hardware s) (i : Instr) : legal t i = legal s i :=
  eq_of_hardware_eq (legal · i) (fun _ => by cases i <;> rfl) h

theorem exec_sameOutcome (i : Instr) {s t : State} (h : hardware t = hardware s) :
    SameOutcome (exec i s) (exec i t) := by
  have hrun := eq_of_hardware_eq State.runState (fun _ => rfl) h
  rw [exec_eq_guarded, exec_eq_guarded, guarded, guarded, hrun, legal_congr h]
  split
  · exact sameOutcome_next h
  · split
    · exact sameOutcome_next (effectOf_respectsHardware i h)
    · exact sameOutcome_fault _

/-! #### The step, by what the host does -/

theorem step_of_no_event {s : State} (h : s.hostIn = []) : step s = .next s := by
  simp [step, fetch, h]

theorem step_of_reset {s : State} {rest : List HostEvent} (h : s.hostIn = .reset :: rest) :
    step s = .next (resetInput { s with hostIn := rest }) := by
  simp [step, fetch, h]

theorem step_of_word_in_error {s : State} {w : Word} {rest : List HostEvent} (h : s.hostIn = .word w :: rest)
    (he : s.runState = .error) : step s = .next { s with hostIn := rest } := by
  simp [step, fetch, h, he]

theorem step_of_invalid_word {s : State} {w : Word} {rest : List HostEvent} {e : Invalid}
    (h : s.hostIn = .word w :: rest) (hn : s.runState ≠ .error) (hd : decode s.hasCancel w = .error e) :
    step s = .fault (.illegalCommand w) := by
  simp [step, fetch, h, hn, hd]

theorem step_of_command {s : State} {w : Word} {rest : List HostEvent} {i : Instr}
    (h : s.hostIn = .word w :: rest) (hn : s.runState ≠ .error) (hd : decode s.hasCancel w = .ok i) :
    step s = exec i { s with hostIn := rest } := by
  simp [step, fetch, h, hn, hd]

theorem setHostIn_respectsHardware (rest : List HostEvent) : RespectsHardware fun s => { s with hostIn := rest } :=
  .of_commutes fun _ => rfl

theorem step_sameOutcome {s t : State} (h : hardware t = hardware s) : SameOutcome (step s) (step t) := by
  have hhost := eq_of_hardware_eq State.hostIn (fun _ => rfl) h
  have hrun := eq_of_hardware_eq State.runState (fun _ => rfl) h
  have hcancel := eq_of_hardware_eq State.hasCancel (fun _ => rfl) h
  cases hs : s.hostIn with
  | nil =>
    rw [step_of_no_event hs, step_of_no_event (hhost.trans hs)]
    exact sameOutcome_next h
  | cons e rest =>
    have hrest := setHostIn_respectsHardware rest h
    cases e with
    | reset =>
      rw [step_of_reset hs, step_of_reset (hhost.trans hs)]
      exact sameOutcome_next (resetInput_respectsHardware hrest)
    | word w =>
      by_cases he : s.runState = .error
      · rw [step_of_word_in_error hs he, step_of_word_in_error (hhost.trans hs) (hrun.trans he)]
        exact sameOutcome_next hrest
      · have hne : t.runState ≠ .error := hrun ▸ he
        cases hd : decode s.hasCancel w with
        | error r =>
          rw [step_of_invalid_word hs he hd, step_of_invalid_word (hhost.trans hs) hne (hcancel ▸ hd)]
          exact sameOutcome_fault _
        | ok i =>
          rw [step_of_command hs he hd, step_of_command (hhost.trans hs) hne (hcancel ▸ hd)]
          exact exec_sameOutcome i hrest

/-- Settles O34: replacing the records leaves the hardware, and states with the same hardware have the same outcome. -/
theorem observationNeverRead : Obligations.ObservationNeverRead := by
  intro s o p
  exact step_sameOutcome (t := { s with obs := o, past := p }) rfl

end Sys2Proof.Machine

/-! ### The status port (10_state.md R39 to R42): a register placed at its bits of STATUS is read back from them -/

namespace Sys2Proof.Machine

/-- A register shifted to bit `k` of a word is read back from the bits it was shifted to. -/
theorem extractLsb'_placed_same {n k : Nat} (x : BitVec n) (h : k + n ≤ 32) :
    (x.zeroExtend 32 <<< k).extractLsb' k n = x := by
  ext i hi
  simp [hi, show k + i < 32 by omega]

/-- A register shifted to bit `k` of a word leaves every field beside it zero. -/
theorem extractLsb'_placed_disjoint {m n j k : Nat} (x : BitVec m) (h : j + n ≤ k ∨ k + m ≤ j) :
    (x.zeroExtend 32 <<< k).extractLsb' j n = 0#n := by
  ext i hi
  rcases h with h | h
  · simp [show j + i < k by omega]
  · simp [BitVec.getLsbD_of_ge x (j + i - k) (by omega)]

/-- STATUS with every register placed by a shift, STATE by a shift of 0. -/
theorem statusWord_eq_placed (s : State) :
    statusWord s = s.runState.code.zeroExtend 32 <<< 0 ||| ((BitVec.ofBool s.fmtCfgd).zeroExtend 32 <<< 3)
      ||| (s.fmtCode.code.zeroExtend 32 <<< 4) ||| (s.err.code.zeroExtend 32 <<< 6)
      ||| (s.fcnt.zeroExtend 32 <<< 9) ||| (s.sess.code.zeroExtend 32 <<< 16)
      ||| ((BitVec.ofBool s.hasCancel).zeroExtend 32 <<< 18) := by
  rw [statusWord, BitVec.shiftLeft_zero]

/-- Every field of STATUS reads its register, and bits 31 to 19 read zero (R39). -/
theorem statusWord_fields (s : State) :
    (statusWord s).extractLsb' 0 3 = s.runState.code ∧ (statusWord s).extractLsb' 3 1 = BitVec.ofBool s.fmtCfgd ∧
      (statusWord s).extractLsb' 4 2 = s.fmtCode.code ∧ (statusWord s).extractLsb' 6 3 = s.err.code ∧
      (statusWord s).extractLsb' 9 7 = s.fcnt ∧ (statusWord s).extractLsb' 16 2 = s.sess.code ∧
      (statusWord s).extractLsb' 18 1 = BitVec.ofBool s.hasCancel ∧ (statusWord s).extractLsb' 19 13 = 0#13 := by
  simp (disch := omega) only [statusWord_eq_placed, BitVec.extractLsb'_or, extractLsb'_placed_same,
    extractLsb'_placed_disjoint, BitVec.or_zero, BitVec.zero_or, and_self]

/-! #### The port and the levels -/

theorem statusRead_other {sel : Nat} (h0 : sel ≠ 0) (h1 : sel ≠ 1) (s : State) : statusRead sel s = 0 := by
  simp [statusRead, h0, h1]

theorem errinfoWord_low (s : State) : (errinfoWord s).extractLsb' 0 16 = s.errinfo := by
  simpa [errinfoWord] using extractLsb'_placed_same (k := 0) s.errinfo (by omega)

theorem errinfoWord_high (s : State) : (errinfoWord s).extractLsb' 16 16 = 0 := by
  simpa [errinfoWord] using extractLsb'_placed_disjoint (j := 16) (k := 0) (n := 16) s.errinfo (by omega)

theorem runOk_iff (s : State) : runOk s = true ↔ s.runState = .done := decide_eq_true_iff

theorem runFail_iff (s : State) : runFail s = true ↔ s.runState = .error := decide_eq_true_iff

/-- Settles O20, field by field of STATUS; the codes are those of R32, R35, R36 and R38. -/
theorem statusPortFields : Obligations.StatusPortFields := by
  intro s
  obtain ⟨hrun, hcfgd, hfmt, herr, hcnt, hsess, hcancel, hunused⟩ := statusWord_fields s
  refine ⟨⟨?_, hcfgd, ?_, ?_, hcnt, ?_, hcancel, hunused⟩, ⟨errinfoWord_low s, errinfoWord_high s⟩,
    fun sel h0 h1 => statusRead_other h0 h1 s, runOk_iff s, runFail_iff s⟩
  · exact hrun.trans (by cases s.runState <;> rfl)
  · exact hfmt.trans (by cases s.fmtCode <;> rfl)
  · exact herr.trans (by cases s.err <;> rfl)
  · exact hsess.trans (by cases s.sess <;> rfl)

/-! ### The reset state (10_state.md R48) -/

/-- Settles O18, by the fields of the reset state; STATUS holds HAS_CANCEL alone. -/
theorem resetValues : Obligations.ResetValues := by
  refine ⟨rfl, fun hasCancel => ?_⟩
  cases hasCancel <;> decide

theorem resetWith_boundaryInv (hasCancel : Bool) : BoundaryInv (State.resetWith hasCancel) :=
  boundaryInv_of_idle rfl rfl rfl rfl

theorem resetWith_encoderLogInv (hasCancel : Bool) : EncoderLogInv (State.resetWith hasCancel) := by
  refine ⟨.inl rfl, rfl, fun r hr => ?_⟩
  exact absurd hr List.not_mem_nil

/-- Settles O38, by the empty record and the empty list of past runs. -/
theorem resetMeetsInvariants : Obligations.ResetMeetsInvariants := fun hasCancel =>
  ⟨resetWith_boundaryInv hasCancel, resetWith_encoderLogInv hasCancel, fun _ => ⟨rfl, rfl⟩⟩

end Sys2Proof.Machine

/-! ### OUT grows by whole units (20_memory.md R63 to R66): one counted write of a unit of the format's size, or nothing -/

namespace Sys2Proof.Machine

/-- `u` has the size of one unit in the format (R65). -/
def IsWholeUnit (f : Format) (u : List Byte) : Prop :=
  match f with
  | .mulaw => u.length = 1
  | .alaw => u.length = 1
  | .pcm16le => u.length = 2
  | .frame => 1 ≤ u.length ∧ u.length ≤ 10

/-- From `s` to `t` OUT is unchanged, or has one whole unit of the format more by one counted write. -/
def GrowsByUnit (f : Format) (s t : State) : Prop :=
  t.obs.out = s.obs.out ∨
    ∃ u : List Byte, t.obs.out = s.obs.out ++ u ∧ t.obs.nwrites = s.obs.nwrites + 1 ∧ IsWholeUnit f u

theorem sampleUnit_isWholeUnit {f : Format} (hf : f ≠ .frame) (x : Sample) : IsWholeUnit f (sampleUnit f x) := by
  cases f with
  | mulaw => rfl
  | alaw => rfl
  | pcm16le => rfl
  | frame => exact absurd rfl hf

/-! #### The operations that write -/

theorem emitUnit_growsByUnit {f : Format} {u : List Byte} (hu : IsWholeUnit f u) (s : State) :
    GrowsByUnit f s (emitUnit u s) := by
  rcases emitUnit_cases u s with ⟨_, h⟩ | ⟨c, _, h⟩
  · exact .inr ⟨u, by simp [h], emitUnit_nwrites u s, hu⟩
  · exact .inl (by simp [h])

theorem frameCycle_growsByUnit (f : Frame) (s : State) : GrowsByUnit .frame s (frameCycle f s) := by
  rcases frameCycle_registers f s with ⟨-, -, -, -, hlen, hwrites, hout, -⟩ | ⟨-, -, -, hout, -⟩
  · exact .inr ⟨unitAnswer s f, hout, hwrites, hlen⟩
  · exact .inl hout

theorem fbHandoff_growsByUnit (s : State) : GrowsByUnit .frame s (fbHandoff s) :=
  frameCycle_growsByUnit s.fbuf (clearCount s)

theorem fbPush_growsByUnit (x : Sample) (s : State) : GrowsByUnit .frame s (fbPush x s) := by
  rcases fbPush_cases x s with ⟨_, h⟩ | ⟨_, h⟩ <;> rw [h]
  · exact fbHandoff_growsByUnit (fbStore x s)
  · exact .inl rfl

theorem fbFlush_growsByUnit (s : State) : GrowsByUnit .frame s (fbFlush s) := by
  rcases fbFlush_cases s with ⟨_, h⟩ | ⟨_, h⟩ <;> rw [h]
  · exact .inl rfl
  · simpa [GrowsByUnit] using fbHandoff_growsByUnit (padBuffer s)

/-! #### The ends of START and EOS write nothing -/

@[simp] theorem afterOpening_obs (o : State) : (afterOpening o).obs = o.obs := by
  unfold afterOpening
  split <;> rfl

@[simp] theorem afterDraining_out (d : State) : (afterDraining d).obs.out = d.obs.out := by
  unfold afterDraining
  split <;> simp

@[simp] theorem afterDraining_nwrites (d : State) : (afterDraining d).obs.nwrites = d.obs.nwrites := by
  unfold afterDraining
  split <;> simp

/-! #### The effects of the commands -/

@[simp] theorem beginRun_out (s : State) : (beginRun s).obs.out = s.obs.out := by
  by_cases hf : s.fmtCode = .frame
  · simp [beginRun_frame hf]
  · simp [beginRun_not_frame hf]

theorem takeSample_growsByUnit (x : Sample) (s : State) : GrowsByUnit s.fmtCode s (takeSample x s) := by
  by_cases hf : s.fmtCode = .frame
  · rw [takeSample_frame hf, hf]
    exact fbPush_growsByUnit x (countSample s)
  · rw [takeSample_not_frame hf]
    exact emitUnit_growsByUnit (sampleUnit_isWholeUnit hf x) (countSample s)

theorem endStream_growsByUnit (s : State) : GrowsByUnit s.fmtCode s (endStream s) := by
  by_cases hf : s.fmtCode = .frame
  · rw [endStream_frame hf, hf]
    simpa [GrowsByUnit] using fbFlush_growsByUnit (setRun .draining s)
  · rw [endStream_not_frame hf]
    exact .inl rfl

/-- Only SAMPLE and EOS write (R65); every other command leaves OUT as it is. -/
theorem effectOf_growsByUnit (i : Instr) (s : State) : GrowsByUnit s.fmtCode s (effectOf i s) := by
  cases i with
  | cfg f => exact .inl rfl
  | start => exact .inl (beginRun_out s)
  | sample x => exact takeSample_growsByUnit x s
  | eos => exact endStream_growsByUnit s
  | srcerr c => exact .inl (enterError_out .sourceRead c s)
  | cancel => exact .inl (enterError_out .cancelled 0 s)

theorem exec_growsByUnit {i : Instr} {s t : State} (h : exec i s = .next t) : GrowsByUnit s.fmtCode s t := by
  rcases exec_next h with ⟨_, rfl⟩ | ⟨_, _, rfl⟩
  · exact .inl rfl
  · exact effectOf_growsByUnit i s

/-- Settles O33: a word is consumed in Error, which writes nothing, or executes a command, whose effect writes at most one
unit; taking the word from the host leaves the format and the records. -/
theorem outputGrowsByWholeUnits : Obligations.OutputGrowsByWholeUnits := by
  intro s t w rest hword h
  rcases step_next h with ⟨hnone, _⟩ | ⟨rest', hreset, _⟩ | ⟨_, rest', _, _, rfl⟩ | ⟨_, rest', i, _, _, _, hexec⟩
  · simp [hword] at hnone
  · simp [hword] at hreset
  · exact .inl rfl
  · exact exec_growsByUnit (s := { s with hostIn := rest' }) hexec

end Sys2Proof.Machine

/-! ### Decoding and encoding of command words (30_encoding.md R80 to R89) -/

namespace Sys2Proof

/-! #### The operand of CFG (R83): 2 bits in a field of 16 -/

theorem cfgOperand_high (c : BitVec 2) : (c.setWidth 16).extractLsb' 2 14 = 0 := by revert c; decide

theorem cfgOperand_low (c : BitVec 2) : (c.setWidth 16).extractLsb' 0 2 = c := by revert c; decide

/-- An operand whose bits 15 to 2 are zero is its low two bits. -/
theorem cfgOperand_of_high_zero {x : BitVec 16} (h : x.extractLsb' 2 14 = 0) : (x.extractLsb' 0 2).setWidth 16 = x := by
  ext i hi
  by_cases h2 : i < 2
  · simp [h2, BitVec.getLsbD_eq_getElem hi]
  · have hbit : (x.extractLsb' 2 14)[i - 2] = false := by simp [h]
    simp only [BitVec.getElem_extractLsb', show 2 + (i - 2) = i by omega, BitVec.getLsbD_eq_getElem hi] at hbit
    simp [h2, hbit]

/-! #### The decoder by opcode (R87): each word is one of eight kinds, and what each kind decodes to -/

theorem opcode_cases (op : BitVec 4) :
    (op = 0#4 ∨ 7#4 ≤ op) ∨ op = 1#4 ∨ op = 2#4 ∨ op = 3#4 ∨ op = 4#4 ∨ op = 5#4 ∨ op = 6#4 := by
  revert op; decide

/-- A word has a reserved bit set, or is packed from a reserved opcode or from the opcode of a command (R82). -/
theorem word_cases (w : Word) :
    rsvField w ≠ 0#12 ∨ (∃ op x, (op = 0#4 ∨ 7#4 ≤ op) ∧ w = packWord op x) ∨
      ∃ x, w = packWord 1#4 x ∨ w = packWord 2#4 x ∨ w = packWord 3#4 x ∨ w = packWord 4#4 x ∨ w = packWord 5#4 x ∨
        w = packWord 6#4 x := by
  by_cases hrsv : rsvField w = 0#12
  · have hw := packWord_fields hrsv
    rcases opcode_cases (opField w) with hop | hop
    · exact .inr (.inl ⟨_, _, hop, hw.symm⟩)
    · refine .inr (.inr ⟨opndField w, ?_⟩)
      rcases hop with h | h | h | h | h | h <;> simp [← h, hw]
  · exact .inl hrsv

section
variable (hasCancel : Bool)

theorem decode_reservedField {w : Word} (h : rsvField w ≠ 0#12) : decode hasCancel w = .error .reservedField := by
  simp [decode, h]

theorem decode_reservedOpcode {op : BitVec 4} (h : op = 0#4 ∨ 7#4 ≤ op) (x : BitVec 16) :
    decode hasCancel (packWord op x) = .error .reservedOpcode := by
  obtain ⟨h1, h2, h3, h4, h5, h6⟩ : op ≠ 1#4 ∧ op ≠ 2#4 ∧ op ≠ 3#4 ∧ op ≠ 4#4 ∧ op ≠ 5#4 ∧ op ≠ 6#4 := by
    revert op; decide
  simp [decode, *]

theorem decode_cfgWord (x : BitVec 16) : decode hasCancel (packWord 1#4 x) =
    if x.extractLsb' 2 14 = 0#14 then .ok (.cfg (Format.ofCode (x.extractLsb' 0 2))) else .error .cfgOperand := by
  simp [decode]

theorem decode_startWord (x : BitVec 16) :
    decode hasCancel (packWord 2#4 x) = if x = 0#16 then .ok .start else .error .operandNotZero := by
  simp [decode]

theorem decode_sampleWord (x : BitVec 16) : decode hasCancel (packWord 3#4 x) = .ok (.sample x) := by
  simp [decode]

theorem decode_eosWord (x : BitVec 16) :
    decode hasCancel (packWord 4#4 x) = if x = 0#16 then .ok .eos else .error .operandNotZero := by
  simp [decode]

theorem decode_srcerrWord (x : BitVec 16) : decode hasCancel (packWord 5#4 x) = .ok (.srcerr x) := by
  simp [decode]

theorem decode_cancelWord (x : BitVec 16) : decode hasCancel (packWord 6#4 x) =
    if hasCancel then if x = 0#16 then .ok .cancel else .error .operandNotZero else .error .noCancel := by
  simp [decode]

end

/-- Decode after encode: the fields of a packed word are its parts. -/
theorem decode_encode {hasCancel : Bool} {i : Instr} (h : wellFormed hasCancel i = true) :
    decode hasCancel (encode i) = .ok i := by
  cases i with
  | cfg f => simp [encode, decode_cfgWord, cfgOperand_high, cfgOperand_low]
  | start => simp [encode, decode_startWord]
  | sample x => exact decode_sampleWord hasCancel x
  | eos => simp [encode, decode_eosWord]
  | srcerr c => exact decode_srcerrWord hasCancel c
  | cancel =>
    have hc : hasCancel = true := h
    simp [encode, decode_cancelWord, hc]

/-- Encode after decode, by the kind of the word. -/
theorem encode_of_decode {hasCancel : Bool} {w : Word} {i : Instr} (h : decode hasCancel w = .ok i) :
    encode i = w ∧ wellFormed hasCancel i = true := by
  rcases word_cases w with hrsv | ⟨op, x, hop, rfl⟩ | ⟨x, rfl | rfl | rfl | rfl | rfl | rfl⟩
  · simp [decode_reservedField hasCancel hrsv] at h
  · simp [decode_reservedOpcode hasCancel hop] at h
  · rw [decode_cfgWord] at h
    split at h
    case isTrue hx =>
      cases h
      exact ⟨by simp [encode, Format.code_ofCode, cfgOperand_of_high_zero hx], rfl⟩
    case isFalse => cases h
  · rw [decode_startWord] at h
    split at h <;> cases h
    exact ⟨by simp [encode, *], rfl⟩
  · cases (decode_sampleWord hasCancel x).symm.trans h
    exact ⟨rfl, rfl⟩
  · rw [decode_eosWord] at h
    split at h <;> cases h
    exact ⟨by simp [encode, *], rfl⟩
  · cases (decode_srcerrWord hasCancel x).symm.trans h
    exact ⟨rfl, rfl⟩
  · rw [decode_cancelWord] at h
    split at h
    case isTrue hc =>
      split at h <;> cases h
      exact ⟨by simp [encode, *], hc⟩
    case isFalse => cases h

theorem decode_eq_ok_iff {hasCancel : Bool} {w : Word} {i : Instr} :
    decode hasCancel w = .ok i ↔ encode i = w ∧ wellFormed hasCancel i = true :=
  ⟨encode_of_decode, fun ⟨he, hwf⟩ => he ▸ decode_encode hwf⟩

/-- A word is Invalid exactly by the items of R88. -/
theorem decode_invalid_iff (hasCancel : Bool) (w : Word) :
    (∃ e, decode hasCancel w = .error e) ↔
      (opField w = 0x0 ∨ 0x7 ≤ opField w) ∨ rsvField w ≠ 0 ∨
      (opField w = 0x1 ∧ (opndField w).extractLsb' 2 14 ≠ 0) ∨
      ((opField w = 0x2 ∨ opField w = 0x4 ∨ opField w = 0x6) ∧ opndField w ≠ 0) ∨
      (opField w = 0x6 ∧ hasCancel = false) := by
  rcases word_cases w with hrsv | ⟨op, x, hop, rfl⟩ | ⟨x, rfl | rfl | rfl | rfl | rfl | rfl⟩
  · simp [decode_reservedField hasCancel hrsv, hrsv]
  · simpa [decode_reservedOpcode hasCancel hop] using .inl hop
  · by_cases hx : x.extractLsb' 2 14 = 0#14 <;> simp [decode_cfgWord, hx]
  · by_cases hx : x = 0#16 <;> simp [decode_startWord, hx]
  · simp [decode_sampleWord]
  · by_cases hx : x = 0#16 <;> simp [decode_eosWord, hx]
  · simp [decode_srcerrWord]
  · by_cases hx : x = 0#16 <;> cases hasCancel <;> simp [decode_cancelWord, hx]

/-! #### Match and mask (R89): a row takes a word exactly when the word is the word of a command of that row -/

theorem encode_cfg (f : Format) : encode (.cfg f) = 0x10000000#32 ||| f.code.setWidth 32 := by cases f <;> rfl

theorem encode_sample (x : Sample) : encode (.sample x) = 0x30000000#32 ||| x.setWidth 32 := rfl

theorem encode_srcerr (c : Cause) : encode (.srcerr c) = 0x50000000#32 ||| c.setWidth 32 := rfl

/-- A word that meets a mask with `n` free low bits is the match with those bits filled in. -/
theorem word_of_mask {w v : Word} (n : Nat) (h : w &&& BitVec.allOnes 32 <<< n = v) :
    w = v ||| (w.extractLsb' 0 n).setWidth 32 := by
  subst h
  ext i hi
  by_cases hn : i < n <;> simp [hn, hi, -BitVec.reduceAllOnes]

theorem word_of_fullMask {w v : Word} (h : w &&& 0xFFFFFFFF#32 = v) : v = w :=
  h.symm.trans BitVec.and_allOnes

theorem row_mem_opcodeTable (i : Instr) : i.row ∈ opcodeTable := by
  cases i <;> simp [Instr.row, opcodeTable]

theorem row_takes_encode {hasCancel : Bool} {i : Instr} (h : wellFormed hasCancel i = true) :
    i.row.takes hasCancel (encode i) = true := by
  cases i with
  | cfg f => exact Laws.EncodingRow.cfg f hasCancel h
  | start => exact Laws.EncodingRow.start hasCancel h
  | sample x => exact Laws.EncodingRow.sample x hasCancel h
  | eos => exact Laws.EncodingRow.eos hasCancel h
  | srcerr c => exact Laws.EncodingRow.srcerr c hasCancel h
  | cancel => exact Laws.EncodingRow.cancel hasCancel h

theorem takes_iff {hasCancel : Bool} {r : OpcodeRow} {w : Word} :
    r.takes hasCancel w = true ↔ w &&& r.maskBits = r.matchBits ∧ (r.needsCancel = true → hasCancel = true) := by
  cases h : r.needsCancel <;> simp [OpcodeRow.takes, h]

/-- The free bits of a word a row takes are the operand of the command. -/
theorem exists_encode_of_takes {hasCancel : Bool} {r : OpcodeRow} {w : Word} (hr : r ∈ opcodeTable)
    (h : r.takes hasCancel w = true) : ∃ i, encode i = w ∧ wellFormed hasCancel i = true ∧ i.row = r := by
  obtain ⟨hmask, hneed⟩ := takes_iff.mp h
  simp only [opcodeTable, List.mem_cons, List.not_mem_nil, or_false] at hr
  rcases hr with rfl | rfl | rfl | rfl | rfl | rfl
  · refine ⟨.cfg (Format.ofCode (w.extractLsb' 0 2)), ?_, rfl, rfl⟩
    rw [encode_cfg, Format.code_ofCode]
    exact (word_of_mask 2 hmask).symm
  · exact ⟨.start, word_of_fullMask hmask, rfl, rfl⟩
  · exact ⟨.sample (opndField w), (word_of_mask 16 hmask).symm, rfl, rfl⟩
  · exact ⟨.eos, word_of_fullMask hmask, rfl, rfl⟩
  · exact ⟨.srcerr (opndField w), (word_of_mask 16 hmask).symm, rfl, rfl⟩
  · exact ⟨.cancel, word_of_fullMask hmask, hneed rfl, rfl⟩

theorem takes_iff_decode {hasCancel : Bool} {r : OpcodeRow} {w : Word} (hr : r ∈ opcodeTable) :
    r.takes hasCancel w = true ↔ ∃ i, decode hasCancel w = .ok i ∧ i.row = r := by
  constructor
  · intro h
    obtain ⟨i, henc, hwf, hrow⟩ := exists_encode_of_takes hr h
    exact ⟨i, decode_eq_ok_iff.mpr ⟨henc, hwf⟩, hrow⟩
  · rintro ⟨i, hdec, rfl⟩
    obtain ⟨rfl, hwf⟩ := decode_eq_ok_iff.mp hdec
    exact row_takes_encode hwf

end Sys2Proof

namespace Sys2Proof.Machine

/-- Settles O1: the fields of a packed word are the parts it was packed from. -/
theorem decodeOfEncode : Obligations.DecodeOfEncode := fun _ _ => decode_encode

/-- Settles O2, by the kind of the word. -/
theorem encodeOfDecode : Obligations.EncodeOfDecode := fun _ _ _ => encode_of_decode

/-- Settles O3: R88 by the kind of the word, and the step by the run state. -/
theorem invalidWordsExactly : Obligations.InvalidWordsExactly :=
  ⟨decode_invalid_iff, fun _ _ _ _ hword hdec =>
    ⟨fun hrun => step_of_invalid_word hword hrun hdec, step_of_word_in_error hword⟩⟩

/-- Settles O4: a row takes exactly the words of its commands, so two rows that take one word are the row of the one command
it decodes to, and a word that decodes is taken by its command's row. -/
theorem matchMaskDecides : Obligations.MatchMaskDecides := by
  intro hasCancel w
  refine ⟨fun r hr => takes_iff_decode hr, fun r hr q hq hrw hqw => ?_, fun hnone => ?_⟩
  · obtain ⟨i, hi, rfl⟩ := (takes_iff_decode hr).mp hrw
    obtain ⟨j, hj, rfl⟩ := (takes_iff_decode hq).mp hqw
    exact congrArg Instr.row (Except.ok.inj (hi.symm.trans hj))
  · cases hdec : decode hasCancel w with
    | error e => exact ⟨e, rfl⟩
    | ok i =>
      have htakes := (takes_iff_decode (row_mem_opcodeTable i)).mpr ⟨i, hdec, rfl⟩
      simp [hnone _ (row_mem_opcodeTable i)] at htakes

end Sys2Proof.Machine

/-! ### The assembler (30_encoding.md R90 to R92) -/

namespace Sys2Proof.Machine

/-! #### Lines of one operand: the operand is checked, then encoded -/

theorem assemble_cfg (f : FormatOperand) :
    (AsmLine.cfg f).assemble = f.toFormat.map fun g => [encode (.cfg g)] := by
  simp [AsmLine.assemble, AsmLine.expand, Function.comp_def]

theorem assemble_sample (v : NumOperand) :
    (AsmLine.sample v).assemble = v.toSample.map fun x => [encode (.sample x)] := by
  simp [AsmLine.assemble, AsmLine.expand, Function.comp_def]

theorem assemble_srcerr (c : NumOperand) :
    (AsmLine.srcerr c).assemble = c.toCause.map fun x => [encode (.srcerr x)] := by
  simp [AsmLine.assemble, AsmLine.expand, Function.comp_def]

/-! #### The pseudo-commands (R91) -/

theorem assemble_chunk_cons (v : NumOperand) (vs : List NumOperand) :
    (AsmLine.chunk (v :: vs)).assemble =
      (AsmLine.sample v).assemble.bind fun a => (AsmLine.chunk vs).assemble.map (a ++ ·) := by
  rw [assemble_sample]
  cases hv : v.toSample <;> cases hvs : vs.mapM NumOperand.toSample <;>
    simp [AsmLine.assemble, AsmLine.expand, expandChunk, hv, hvs]

theorem assemble_chunk (vs : List NumOperand) :
    (AsmLine.chunk vs).assemble = (vs.mapM fun v => (AsmLine.sample v).assemble).map List.flatten := by
  induction vs with
  | nil => rfl
  | cons v vs ih =>
    rw [assemble_chunk_cons, ih]
    cases hv : (AsmLine.sample v).assemble <;> cases hvs : vs.mapM fun v => (AsmLine.sample v).assemble <;>
      simp [hv, hvs]

theorem assemble_silence (k : Nat) : (AsmLine.silence k).assemble = some (List.replicate k 0x30000000#32) :=
  congrArg some List.map_replicate

theorem assemble_run (f : FormatOperand) (vs : List NumOperand) : (AsmLine.run f vs).assemble =
    (AsmLine.cfg f).assemble.bind fun a => AsmLine.start.assemble.bind fun b =>
      (AsmLine.chunk vs).assemble.bind fun c => AsmLine.eos.assemble.map fun d => a ++ b ++ c ++ d := by
  cases hf : f.toFormat <;> cases hvs : expandChunk vs <;> simp [AsmLine.assemble, AsmLine.expand, hf, hvs]

/-- Settles O7: CHUNK by induction on its operands, RUN by which of its operands are in range. -/
theorem pseudoCommandsExpand : Obligations.PseudoCommandsExpand :=
  ⟨assemble_chunk, assemble_silence, assemble_run⟩

/-! #### Operands in range and out of range (R90) -/

/-- In range, the 16 operand bits of a number widen to its 32 bits. -/
theorem u16Operand_map_widened {α : Type} (n : Nat) (g : Word → α) :
    ((u16Operand n).map fun x => g (x.setWidth 32)) = if n < 65536 then some (g (BitVec.ofNat 32 n)) else none := by
  unfold u16Operand
  split <;> simp [*]

theorem assemble_cfg_name (f : Format) :
    (AsmLine.cfg (.name f)).assemble = some [0x10000000#32 ||| f.code.setWidth 32] := by
  rw [assemble_cfg, ← encode_cfg]
  rfl

theorem assemble_cfg_number (k : Nat) :
    (AsmLine.cfg (.number k)).assemble = if k < 4 then some [0x10000000#32 ||| BitVec.ofNat 32 k] else none := by
  by_cases hk : k < 4
  · interval_cases k <;> rfl
  · simp [assemble_cfg, FormatOperand.toFormat, hk]

theorem assemble_sample_dec (v : Int) : (AsmLine.sample (.dec v)).assemble =
    if -32768 ≤ v ∧ v ≤ 32767 then some [0x30000000#32 ||| (BitVec.ofInt 16 v).setWidth 32] else none := by
  by_cases hv : -32768 ≤ v ∧ v ≤ 32767 <;> simp [assemble_sample, NumOperand.toSample, hv, encode_sample, asU16]

theorem assemble_sample_hex (n : Nat) : (AsmLine.sample (.hex n)).assemble =
    if n < 65536 then some [0x30000000#32 ||| BitVec.ofNat 32 n] else none :=
  (assemble_sample (.hex n)).trans (u16Operand_map_widened n fun w => [0x30000000#32 ||| w])

theorem assemble_srcerr_hex (n : Nat) : (AsmLine.srcerr (.hex n)).assemble =
    if n < 65536 then some [0x50000000#32 ||| BitVec.ofNat 32 n] else none :=
  (assemble_srcerr (.hex n)).trans (u16Operand_map_widened n fun w => [0x50000000#32 ||| w])

/-- A decimal cause is a natural number, which assembles as its hex numeral does, or it is negative and rejected. -/
theorem assemble_srcerr_dec (v : Int) : (AsmLine.srcerr (.dec v)).assemble =
    if 0 ≤ v ∧ v ≤ 65535 then some [0x50000000#32 ||| BitVec.ofInt 32 v] else none := by
  cases v with
  | ofNat n =>
    have hrange : (0 ≤ Int.ofNat n ∧ Int.ofNat n ≤ 65535) ↔ n < 65536 := by simp; omega
    simp only [hrange]
    exact assemble_srcerr_hex n
  | negSucc n => rfl

/-- Settles O6, form by form; the lines of text are evaluated. -/
theorem assemblerOperands : Obligations.AssemblerOperands :=
  ⟨assemble_cfg_name, assemble_cfg_number, rfl, assemble_sample_dec, assemble_sample_hex, rfl, assemble_srcerr_dec,
    assemble_srcerr_hex, rfl, by decide⟩

/-- Settles O5: closed lines and words, evaluated. -/
theorem workedEncodings : Obligations.WorkedEncodings := by
  unfold Obligations.WorkedEncodings
  decide

end Sys2Proof.Machine

/-! ### The companders (40_compander.md) -/

namespace Sys2Proof.Machine

/-! #### The segment search (R102) -/

/-- The loop adds the binary logarithm, as far as there is room for it. -/
theorem segsearchFrom_eq (room t s : Nat) : segsearchFrom room t s = s + min room t.log2 := by
  induction room generalizing t s with
  | zero => simp [segsearchFrom]
  | succ room ih =>
    rw [Nat.log2_def, segsearchFrom, ih, Nat.shiftRight_one]
    by_cases ht : 2 ≤ t
    · rw [if_pos ht, if_pos (by omega)]
      omega
    · rw [if_neg ht, if_neg (by omega)]
      omega

theorem segsearch_eq (t : Nat) : segsearch t = min 7 t.log2 := by
  rw [segsearch, segsearchFrom_eq, Nat.zero_add]

theorem segsearch_le (t : Nat) : segsearch t ≤ 7 := by
  rw [segsearch_eq]
  exact Nat.min_le_left ..

theorem segsearch_shiftRight_mono {v w : Nat} (n : Nat) (h : v ≤ w) : segsearch (v >>> n) ≤ segsearch (w >>> n) := by
  rw [segsearch_eq, segsearch_eq, Nat.log2_eq_log_two, Nat.log2_eq_log_two, Nat.shiftRight_eq_div_pow,
    Nat.shiftRight_eq_div_pow]
  exact min_le_min_left 7 (Nat.log_mono_right (Nat.div_le_div_right h))

/-- Below 8 bits the cap is never met. -/
theorem segsearch_eq_iff {t : Nat} (ht : t < 256) (k : Nat) :
    segsearch t = k ↔ (k = 0 ∨ 2 ^ k ≤ t) ∧ t < 2 ^ (k + 1) := by
  have hcap : Nat.log 2 t < 8 := Nat.log_lt_of_lt_pow' (by decide) ht
  rw [segsearch_eq, Nat.log2_eq_log_two, min_eq_right (by omega)]
  cases k with
  | zero => simp
  | succ k => simp [Nat.log_eq_iff]

/-- The segment of a 15-bit value: the place of its top set bit above bit 7, or 0 if no bit above bit 7 is set. -/
theorem segsearch_shiftRight_eq_iff {v : Nat} (hv : v < 32768) (k : Nat) :
    segsearch (v >>> 7) = k ↔ (k = 0 ∨ 2 ^ (k + 7) ≤ v) ∧ v < 2 ^ (k + 8) := by
  rw [Nat.shiftRight_eq_div_pow, segsearch_eq_iff (by omega), Nat.le_div_iff_mul_le (by decide),
    Nat.div_lt_iff_lt_mul (by decide), ← Nat.pow_add, ← Nat.pow_add]

/-- The 4 bits under a top set bit `n + 4` count steps of `2 ^ n` from `2 ^ (n + 4)`. -/
theorem shiftRight_and_15_eq {v n : Nat} (hlo : 2 ^ (n + 4) ≤ v) (hhi : v < 2 ^ (n + 5)) :
    v >>> n &&& 0xF = (v - 2 ^ (n + 4)) / 2 ^ n := by
  rw [Nat.pow_add, Nat.mul_comm, ← Nat.le_div_iff_mul_le (by positivity)] at hlo
  rw [Nat.pow_add, Nat.mul_comm, ← Nat.div_lt_iff_lt_mul (by positivity)] at hhi
  rw [Nat.shiftRight_eq_div_pow, Nat.and_two_pow_sub_one_eq_mod _ 4, Nat.pow_add, Nat.sub_mul_div]
  omega

/-- Settles O41: the loop is the capped binary logarithm. -/
theorem segmentSearchClosedForm : Obligations.SegmentSearchClosedForm :=
  ⟨rfl, rfl, fun t _ => segsearch_eq t, segsearch_le⟩

/-! #### The sign and the magnitude of a sample (R101) -/

theorem not_isNeg (x : Sample) : (!isNeg x) = decide (0 ≤ x.toInt) := by
  rw [isNeg, ← decide_not, decide_eq_decide, Int.not_lt]

theorem isNeg_of_nonneg {x : Sample} (hx : 0 ≤ x.toInt) : isNeg x = false := by
  simpa [isNeg] using hx

theorem magnitude_le (x : Sample) : magnitude x ≤ 32767 := Nat.min_le_right ..

theorem magnitude_mono {x y : Sample} (hx : 0 ≤ x.toInt) (hxy : x.toInt ≤ y.toInt) : magnitude x ≤ magnitude y :=
  min_le_min_right _ (by omega)

theorem toInt_neg_of_pos {x : Sample} (hx : 1 ≤ x.toInt) : (-x).toInt = -x.toInt :=
  BitVec.toInt_neg_of_ne_intMin (by rintro rfl; revert hx; decide)

theorem isNeg_neg {x : Sample} (hx : 1 ≤ x.toInt) : isNeg (-x) = !isNeg x := by
  rw [isNeg_of_nonneg (x := x) (by omega), isNeg, toInt_neg_of_pos hx]
  exact decide_eq_true (by omega)

theorem magnitude_neg {x : Sample} (hx : 1 ≤ x.toInt) : magnitude (-x) = magnitude x := by
  rw [magnitude, toInt_neg_of_pos hx, Int.natAbs_neg, magnitude]

theorem exists_sample (neg : Bool) {m : Nat} (hpos : 0 < m) (hm : m ≤ 32767) :
    ∃ x, isNeg x = neg ∧ magnitude x = m := by
  have hint : (asU16 (if neg then -(m : Int) else m)).toInt = if neg then -(m : Int) else m := by
    apply BitVec.toInt_ofInt_eq_self (by decide) <;> split <;> omega
  refine ⟨asU16 (if neg then -(m : Int) else m), ?_⟩
  rw [isNeg, magnitude, hint]
  cases neg <;> simp [hpos, hm, Config.maxMag]

/-! #### μ-law: segment and mantissa (R104, R106) -/

theorem ulawBiased_eq (x : Sample) : ulawBiased x = min (magnitude x) 32635 + 132 := rfl

/-- The bias puts a bit at 7 or above, so segment 0 has a lower end as the others have. -/
theorem ulawSeg_eq_iff (x : Sample) (k : Nat) :
    ulawSeg x = k ↔ 2 ^ (k + 7) ≤ ulawBiased x ∧ ulawBiased x < 2 ^ (k + 8) := by
  have hv := ulawBiased_eq x
  rw [ulawSeg, segsearch_shiftRight_eq_iff (by omega), or_iff_right_of_imp]
  rintro rfl
  omega

theorem ulawSeg_le (x : Sample) : ulawSeg x ≤ 7 := segsearch_le _

theorem ulawMant_le (x : Sample) : ulawMant x ≤ 15 := Nat.and_le_right

theorem ulawMant_eq {x : Sample} {k : Nat} (h : ulawSeg x = k) :
    ulawMant x = (ulawBiased x - 2 ^ (k + 7)) / 2 ^ (k + 3) := by
  obtain ⟨hlo, hhi⟩ := (ulawSeg_eq_iff x k).1 h
  rw [ulawMant, h, shiftRight_and_15_eq hlo hhi]

/-- Settles O45, row by row: the ends of the range and the step are powers of 2, less the bias. -/
theorem mulawSegmentRanges : Obligations.MulawSegmentRanges := by
  intro x r hr
  have hstep : r.2.2.2 = 2 ^ (r.1 + 3) := by revert r; decide
  have hmax := magnitude_le x
  refine ⟨?_, fun h => ?_⟩
  · rw [ulawSeg_eq_iff, ulawBiased_eq]
    simp only [List.mem_cons, List.not_mem_nil, or_false] at hr
    rcases hr with rfl | rfl | rfl | rfl | rfl | rfl | rfl | rfl <;> dsimp only <;> omega
  · rw [ulawMant_eq h, ulawBiased_eq, hstep]

/-! #### A-law: segment and mantissa (R107, R109) -/

/-- The lowest magnitude of an A-law segment. -/
def alawStart (k : Nat) : Nat := if k = 0 then 0 else 2 ^ (k + 7)

/-- A segment is 16 steps long. -/
theorem alawStart_add_steps (k : Nat) : alawStart k + 2 ^ (max k 1 + 3) * 16 = 2 ^ (k + 8) := by
  cases k with
  | zero => rfl
  | succ k =>
    rw [alawStart, if_neg (Nat.succ_ne_zero k), max_eq_left (by omega)]
    ring

theorem alawSeg_eq_iff (x : Sample) (k : Nat) :
    alawSeg x = k ↔ alawStart k ≤ magnitude x ∧ magnitude x < 2 ^ (k + 8) := by
  have hmax := magnitude_le x
  rw [alawSeg, segsearch_shiftRight_eq_iff (by omega), alawStart]
  split <;> simp [*]

theorem alawSeg_le (x : Sample) : alawSeg x ≤ 7 := segsearch_le _

theorem alawMant_le (x : Sample) : alawMant x ≤ 15 := Nat.and_le_right

/-- Segment 0 has no top bit to leave out: its mantissa is all of the magnitude above bit 3. -/
theorem alawMant_eq {x : Sample} {k : Nat} (h : alawSeg x = k) :
    alawMant x = (magnitude x - alawStart k) / 2 ^ (max k 1 + 3) := by
  obtain ⟨hlo, hhi⟩ := (alawSeg_eq_iff x k).1 h
  rw [alawMant, h]
  cases k with
  | zero =>
    show magnitude x >>> 4 &&& 0xF = (magnitude x - 0) / 2 ^ 4
    rw [Nat.shiftRight_eq_div_pow, Nat.and_two_pow_sub_one_eq_mod _ 4]
    omega
  | succ k =>
    rw [max_eq_left (by omega)]
    exact shiftRight_and_15_eq hlo hhi

/-- Settles O46, row by row: the ends of the range and the step are powers of 2, but for segment 0. -/
theorem alawSegmentRanges : Obligations.AlawSegmentRanges := by
  intro x r hr
  have hrow : r.2.1 = alawStart r.1 ∧ r.2.2.1 + 1 = 2 ^ (r.1 + 8) ∧ r.2.2.2 = 2 ^ (max r.1 1 + 3) := by
    revert r; decide
  obtain ⟨hlow, hhigh, hstep⟩ := hrow
  refine ⟨?_, fun h => ?_⟩
  · rw [alawSeg_eq_iff, hlow, ← hhigh, Nat.lt_succ_iff]
  · rw [alawMant_eq h, hlow, hstep]

/-! #### The code byte: a top bit and two fields (R103) -/

/-- The byte of a top bit, a segment field in bits 6:4 and a mantissa field in bits 3:0. -/
def codeByte (top : Bool) (seg : BitVec 3) (mant : BitVec 4) : Byte := BitVec.ofBool top ++ seg ++ mant

theorem codeByte_fields (r : Byte) : codeByte (r.getLsbD 7) (r.extractLsb' 4 3) (r.extractLsb' 0 4) = r := by
  ext i hi
  rw [← BitVec.getLsbD_eq_getElem hi, codeByte, BitVec.getLsbD_append, BitVec.getLsbD_append]
  interval_cases i <;> simp

section
variable (top top' : Bool) (seg seg' : BitVec 3) (mant mant' : BitVec 4)

theorem codeByte_top : (codeByte top seg mant).getLsbD 7 = top := by
  rw [codeByte, BitVec.getLsbD_append, BitVec.getLsbD_append]
  simp

theorem codeByte_seg : (codeByte top seg mant).extractLsb' 4 3 = seg := by
  ext i hi
  rw [BitVec.getElem_extractLsb', codeByte, BitVec.getLsbD_append, BitVec.getLsbD_append]
  simp [hi]

theorem codeByte_mant : (codeByte top seg mant).extractLsb' 0 4 = mant := BitVec.extractLsb'_append_eq_right

theorem toNat_codeByte : (codeByte top seg mant).toNat = 128 * top.toNat + 16 * seg.toNat + mant.toNat := by
  rw [codeByte, BitVec.toNat_append, BitVec.toNat_append, ← Nat.shiftLeft_add_eq_or_of_lt mant.isLt,
    ← Nat.shiftLeft_add_eq_or_of_lt seg.isLt, BitVec.toNat_ofBool]
  omega

theorem codeByte_true_ge : 0x80 ≤ (codeByte true seg mant).toNat := by
  rw [toNat_codeByte, Bool.toNat_true]
  omega

theorem codeByte_false_le : (codeByte false seg mant).toNat ≤ 0x7F := by
  rw [toNat_codeByte, Bool.toNat_false]
  omega

theorem not_codeByte : ~~~ codeByte top seg mant = codeByte (!top) (~~~ seg) (~~~ mant) := by
  rw [codeByte, BitVec.not_append, BitVec.not_append]
  cases top <;> rfl

theorem codeByte_xor : codeByte top seg mant ^^^ codeByte top' seg' mant' =
    codeByte (top ^^ top') (seg ^^^ seg') (mant ^^^ mant') := by
  rw [codeByte, codeByte, BitVec.xor_append, BitVec.xor_append, BitVec.ofBool_xor_ofBool, codeByte]

theorem codeByte_not_top : codeByte (!top) seg mant = codeByte top seg mant ^^^ 0x80 := by
  rw [show (0x80 : Byte) = codeByte true 0 0 from rfl, codeByte_xor]
  simp

end

/-- Fields in range do not overlap in `compose`. -/
theorem compose_eq_codeByte (neg : Bool) {seg mant : Nat} (hseg : seg ≤ 7) (hmant : mant ≤ 15) :
    compose neg seg mant = codeByte neg (BitVec.ofNat 3 seg) (BitVec.ofNat 4 mant) := by
  have hlow : seg <<< 4 ||| mant = 16 * seg + mant := by
    rw [← Nat.shiftLeft_add_eq_or_of_lt (by omega)]
    omega
  have htop : (16 * seg + mant ||| if neg then 0x80 else 0) = 128 * neg.toNat + (16 * seg + mant) := by
    cases neg
    · simp
    · rw [Nat.or_comm]
      exact (Nat.shiftLeft_add_eq_or_of_lt (i := 7) (by omega) 1).symm
  have hneg := neg.toNat_lt
  apply BitVec.eq_of_toNat_eq
  rw [compose, hlow, htop, toNat_codeByte]
  simp only [BitVec.toNat_ofNat]
  omega

/-- The two fields of a code without a sign, as a number: it grows with the segment, and within one with the mantissa. -/
theorem toNat_codeByte_false {seg mant : Nat} (hseg : seg ≤ 7) (hmant : mant ≤ 15) :
    (codeByte false (BitVec.ofNat 3 seg) (BitVec.ofNat 4 mant)).toNat = 16 * seg + mant := by
  rw [toNat_codeByte, BitVec.toNat_ofNat, BitVec.toNat_ofNat, Bool.toNat_false]
  omega

theorem fields_mono {k l m n : Nat} (hm : m ≤ 15) (hkl : k ≤ l) (hmn : k = l → m ≤ n) : 16 * k + m ≤ 16 * l + n := by
  rcases hkl.eq_or_lt with h | h
  · have := hmn h
    omega
  · omega

/-! #### The layout of the codes (R105, R108) -/

theorem encodeMulaw_eq (x : Sample) : encodeMulaw x =
    codeByte (!isNeg x) (~~~ BitVec.ofNat 3 (ulawSeg x)) (~~~ BitVec.ofNat 4 (ulawMant x)) := by
  rw [encodeMulaw, compose_eq_codeByte _ (ulawSeg_le x) (ulawMant_le x), not_codeByte]

theorem alawXor_eq : Config.alawXor = codeByte true 0b101#3 0b0101#4 := rfl

theorem encodeAlaw_eq (x : Sample) : encodeAlaw x =
    codeByte (!isNeg x) (BitVec.ofNat 3 (alawSeg x) ^^^ 0b101#3) (BitVec.ofNat 4 (alawMant x) ^^^ 0b0101#4) := by
  rw [encodeAlaw, compose_eq_codeByte _ (alawSeg_le x) (alawMant_le x), alawXor_eq, codeByte_xor, Bool.xor_true]

/-- Counting whole steps from the start of a segment ignores what is left over. -/
theorem steps_from_start {step rest : Nat} (start m : Nat) (h : rest < step) :
    (start + (step * m + rest) - start) / step = m := by
  rw [Nat.add_sub_cancel_left, Nat.mul_add_div (by omega), Nat.div_eq_of_lt h, Nat.add_zero]

/-- Each sign, μ-law segment and mantissa belongs to a sample, here one whose biased magnitude is 5 above the start of its
step: the bias of 132 is 4 above the start of the first, and no negative sample has magnitude 0. -/
theorem exists_sample_ulaw (neg : Bool) {k m : Nat} (hk : k ≤ 7) (hm : m ≤ 15) :
    ∃ x, isNeg x = neg ∧ ulawSeg x = k ∧ ulawMant x = m := by
  have hmin : 2 ^ 3 ≤ 2 ^ (k + 3) := Nat.pow_le_pow_right (by decide) (by omega)
  have hmax : 2 ^ (k + 3) ≤ 2 ^ 10 := Nat.pow_le_pow_right (by decide) (by omega)
  have hsteps : 2 ^ (k + 3) * m ≤ 2 ^ (k + 3) * 15 := Nat.mul_le_mul_left _ hm
  have hstart : 2 ^ (k + 7) = 2 ^ (k + 3) * 16 := Nat.pow_add 2 (k + 3) 4
  have hend : 2 ^ (k + 8) = 2 ^ (k + 3) * 32 := Nat.pow_add 2 (k + 3) 5
  obtain ⟨x, hneg, hmag⟩ := exists_sample neg (m := 2 ^ (k + 7) + 2 ^ (k + 3) * m - 127) (by omega) (by omega)
  have hv : ulawBiased x = 2 ^ (k + 7) + (2 ^ (k + 3) * m + 5) := by
    rw [ulawBiased_eq, hmag]
    omega
  have hseg : ulawSeg x = k := (ulawSeg_eq_iff x k).2 (by omega)
  refine ⟨x, hneg, hseg, ?_⟩
  rw [ulawMant_eq hseg, hv, steps_from_start _ _ (by omega)]

/-- Each sign, A-law segment and mantissa belongs to a sample, here one 1 above the lowest magnitude of its step. -/
theorem exists_sample_alaw (neg : Bool) {k m : Nat} (hk : k ≤ 7) (hm : m ≤ 15) :
    ∃ x, isNeg x = neg ∧ alawSeg x = k ∧ alawMant x = m := by
  have hmin : 2 ^ 4 ≤ 2 ^ (max k 1 + 3) := Nat.pow_le_pow_right (by decide) (by omega)
  have hmax : 2 ^ (k + 8) ≤ 2 ^ 15 := Nat.pow_le_pow_right (by decide) (by omega)
  have hsteps : 2 ^ (max k 1 + 3) * m ≤ 2 ^ (max k 1 + 3) * 15 := Nat.mul_le_mul_left _ hm
  have hend := alawStart_add_steps k
  obtain ⟨x, hneg, hmag⟩ := exists_sample neg (m := alawStart k + (2 ^ (max k 1 + 3) * m + 1)) (by omega) (by omega)
  have hseg : alawSeg x = k := (alawSeg_eq_iff x k).2 (by omega)
  refine ⟨x, hneg, hseg, ?_⟩
  rw [alawMant_eq hseg, hmag, steps_from_start _ _ (by omega)]

theorem encodeMulaw_surjective : Function.Surjective encodeMulaw := by
  intro r
  obtain ⟨x, hneg, hseg, hmant⟩ := exists_sample_ulaw (!r.getLsbD 7) (k := (~~~ r.extractLsb' 4 3).toNat)
    (m := (~~~ r.extractLsb' 0 4).toNat) (by omega) (by omega)
  exact ⟨x, by
    simp only [encodeMulaw_eq, hneg, hseg, hmant, BitVec.ofNat_toNat, BitVec.setWidth_eq, BitVec.not_not, Bool.not_not,
      codeByte_fields]⟩

theorem encodeAlaw_surjective : Function.Surjective encodeAlaw := by
  intro r
  obtain ⟨x, hneg, hseg, hmant⟩ := exists_sample_alaw (!r.getLsbD 7) (k := (r.extractLsb' 4 3 ^^^ 0b101#3).toNat)
    (m := (r.extractLsb' 0 4 ^^^ 0b0101#4).toNat) (by omega) (by omega)
  exact ⟨x, by
    simp only [encodeAlaw_eq, hneg, hseg, hmant, BitVec.ofNat_toNat, BitVec.setWidth_eq, BitVec.xor_assoc,
      BitVec.xor_self, BitVec.xor_zero, Bool.not_not, codeByte_fields]⟩

/-- Settles O43: the byte is the complement of the composed fields. -/
theorem mulawByteLayout : Obligations.MulawByteLayout := by
  refine ⟨fun x => ?_, encodeMulaw_surjective⟩
  have hseg := ulawSeg_le x
  have hmant := ulawMant_le x
  rw [encodeMulaw_eq]
  refine ⟨hseg, hmant, ?_, ?_, ?_, fun h => ?_, fun h => ?_⟩
  · rw [codeByte_top, not_isNeg]
  · rw [codeByte_seg, BitVec.toNat_not, BitVec.toNat_ofNat]
    omega
  · rw [codeByte_mant, BitVec.toNat_not, BitVec.toNat_ofNat]
    omega
  · rw [not_isNeg, decide_eq_true h]
    exact codeByte_true_ge _ _
  · rw [not_isNeg, decide_eq_false (by omega)]
    exact codeByte_false_le _ _

/-- Settles O44: the byte is the composed fields under the mask 0xD5. -/
theorem alawByteLayout : Obligations.AlawByteLayout := by
  refine ⟨fun x => ?_, encodeAlaw_surjective⟩
  rw [encodeAlaw_eq, codeByte_top, codeByte_seg, codeByte_mant, not_isNeg]
  refine ⟨alawSeg_le x, alawMant_le x, rfl, rfl, rfl, fun h => ?_, fun h => ?_⟩
  · rw [decide_eq_true h]
    exact codeByte_true_ge _ _
  · rw [decide_eq_false (by omega)]
    exact codeByte_false_le _ _

/-! #### Polarity (R110) -/

theorem encodeMulaw_neg {x : Sample} (hx : 1 ≤ x.toInt) : encodeMulaw (-x) = encodeMulaw x ^^^ 0x80 := by
  have hv : ulawBiased (-x) = ulawBiased x := by rw [ulawBiased, magnitude_neg hx, ulawBiased]
  rw [encodeMulaw_eq, encodeMulaw_eq, isNeg_neg hx, codeByte_not_top]
  simp only [ulawSeg, ulawMant, hv]

theorem encodeAlaw_neg {x : Sample} (hx : 1 ≤ x.toInt) : encodeAlaw (-x) = encodeAlaw x ^^^ 0x80 := by
  rw [encodeAlaw_eq, encodeAlaw_eq, isNeg_neg hx, codeByte_not_top]
  simp only [alawSeg, alawMant, magnitude_neg hx]

/-- Settles O47: negating keeps the magnitude and flips the sign; the extreme pair and 0 are evaluated. -/
theorem polaritySymmetry : Obligations.PolaritySymmetry :=
  ⟨fun _ hx => ⟨encodeMulaw_neg hx, encodeAlaw_neg hx⟩, by decide⟩

/-! #### The magnitude part grows with the magnitude (R111) -/

theorem ulawCode_mono {x y : Sample} (h : magnitude x ≤ magnitude y) :
    16 * ulawSeg x + ulawMant x ≤ 16 * ulawSeg y + ulawMant y := by
  have hv : ulawBiased x ≤ ulawBiased y := Nat.add_le_add_right (min_le_min_right _ h) _
  refine fields_mono (ulawMant_le x) (segsearch_shiftRight_mono 7 hv) fun hseg => ?_
  rw [ulawMant_eq hseg, ulawMant_eq rfl]
  exact Nat.div_le_div_right (Nat.sub_le_sub_right hv _)

theorem alawCode_mono {x y : Sample} (h : magnitude x ≤ magnitude y) :
    16 * alawSeg x + alawMant x ≤ 16 * alawSeg y + alawMant y := by
  refine fields_mono (alawMant_le x) (segsearch_shiftRight_mono 7 h) fun hseg => ?_
  rw [alawMant_eq hseg, alawMant_eq rfl]
  exact Nat.div_le_div_right (Nat.sub_le_sub_right h _)

theorem toNat_encodeMulaw_of_nonneg {x : Sample} (hx : 0 ≤ x.toInt) :
    (encodeMulaw x).toNat = 0xFF - (16 * ulawSeg x + ulawMant x) := by
  rw [encodeMulaw, isNeg_of_nonneg hx, compose_eq_codeByte _ (ulawSeg_le x) (ulawMant_le x), BitVec.toNat_not,
    toNat_codeByte_false (ulawSeg_le x) (ulawMant_le x)]

theorem toNat_encodeAlaw_xor_of_nonneg {x : Sample} (hx : 0 ≤ x.toInt) :
    (encodeAlaw x ^^^ 0xD5).toNat = 16 * alawSeg x + alawMant x := by
  rw [encodeAlaw, isNeg_of_nonneg hx, compose_eq_codeByte _ (alawSeg_le x) (alawMant_le x), BitVec.xor_assoc,
    show Config.alawXor ^^^ 0xD5 = 0#8 from rfl, BitVec.xor_zero, toNat_codeByte_false (alawSeg_le x) (alawMant_le x)]

/-- Settles O48: without the sign and the mask a code is its segment and mantissa, which grow with the magnitude. -/
theorem compandersMonotone : Obligations.CompandersMonotone := by
  intro x y hx hxy
  have hmag := magnitude_mono hx hxy
  have hy := hx.trans hxy
  rw [toNat_encodeMulaw_of_nonneg hx, toNat_encodeMulaw_of_nonneg hy, toNat_encodeAlaw_xor_of_nonneg hx,
    toNat_encodeAlaw_xor_of_nonneg hy]
  refine ⟨?_, alawCode_mono hmag⟩
  have hcode := ulawCode_mono hmag
  have hseg := ulawSeg_le y
  have hmant := ulawMant_le y
  omega

/-- Settles O42: closed samples, evaluated. -/
theorem companderVectors : Obligations.CompanderVectors := by
  unfold Obligations.CompanderVectors
  decide

end Sys2Proof.Machine

/-! ### Chunks of samples (41_frame_buffer.md R143) -/

namespace Sys2Proof.Machine

/-- CHUNK of two operand lists in a row is CHUNK of the first, then CHUNK of the second. -/
theorem assemble_chunk_append (vs us : List NumOperand) :
    (AsmLine.chunk (vs ++ us)).assemble =
      (AsmLine.chunk vs).assemble.bind fun a => (AsmLine.chunk us).assemble.map (a ++ ·) := by
  induction vs with
  | nil => exact Option.map_id'.symm
  | cons v vs ih =>
    rw [List.cons_append, assemble_chunk_cons, assemble_chunk_cons, ih]
    cases (AsmLine.sample v).assemble <;> cases (AsmLine.chunk vs).assemble <;>
      cases (AsmLine.chunk us).assemble <;> simp

/-- Settles O8, by induction on the chunks. -/
theorem chunkBoundariesInvisible : Obligations.ChunkBoundariesInvisible := by
  intro chunks
  induction chunks with
  | nil => rfl
  | cons c cs ih =>
    rw [List.flatten_cons, assemble_chunk_append, ← ih]
    cases hc : (AsmLine.chunk c).assemble <;> cases hcs : cs.mapM fun c => (AsmLine.chunk c).assemble <;>
      simp [hc, hcs]

end Sys2Proof.Machine

/-! ### A sample in FRAME (41_frame_buffer.md R131 to R133, 43_pipeline.md R179) -/

namespace Sys2Proof.Machine

theorem exec_of_legal {s : State} {i : Instr} (hrun : s.runState ≠ .error) (hl : legal s i = true) :
    exec i s = .next (effectOf i s) := by
  rw [exec_eq_guarded, guarded, if_neg hrun, if_pos hl]

theorem exec_sample_streaming {s : State} (hrun : s.runState = .streaming) (x : Sample) :
    exec (.sample x) s = .next (takeSample x s) :=
  exec_of_legal (by simp [hrun]) (by simp [legal, hrun])

/-- Below the 80th sample a push is the store alone. -/
theorem fbPush_stores {s : State} (h : s.fcnt.toNat < 79) (x : Sample) : fbPush x s = fbStore x s := by
  rcases fbPush_cases x s with ⟨hfull, _⟩ | ⟨_, hpush⟩
  · bv_omega
  · exact hpush

/-- The buffer holds the frame `f`, and FCNT is cleared: the block as the encoder is called for `f` (R133). -/
def withFrame (f : Frame) (s : State) : State := { s with fbuf := f, fcnt := 0 }

theorem fbStore_fbuf_completed {s : State} (h : s.fcnt = 79) (x : Sample) :
    (fbStore x s).fbuf = completedFrame s x := by
  rw [fbStore_fbuf, h]
  rfl

/-- The push of the 80th sample is the cycle of the frame it completes. -/
theorem fbPush_completes {s : State} (h : s.fcnt = 79) (x : Sample) :
    fbPush x s = frameCycle (completedFrame s x) (withFrame (completedFrame s x) s) := by
  rcases fbPush_cases x s with ⟨_, hpush⟩ | ⟨hne, _⟩
  · rw [hpush, fbHandoff, ← fbStore_fbuf_completed h]
    rfl
  · exact absurd (by rw [h]; rfl) hne

/-! What the agents answer does not depend on the buffer, nor on the count of samples. -/

theorem afterUnit_withFrame (f : Frame) (s : State) : afterUnit (withFrame f s) = withFrame f (afterUnit s) := by
  cases h : s.encIn <;> simp [afterUnit, withFrame, h]

theorem afterSink_withFrame (f : Frame) (s : State) : afterSink (withFrame f s) = withFrame f (afterSink s) := by
  cases h : s.sinkIn <;> simp [afterSink, withFrame, h]

theorem afterUnit_countSample (s : State) : afterUnit (countSample s) = countSample (afterUnit s) := by
  cases h : s.encIn <;> simp [afterUnit, countSample, h]

theorem afterSink_countSample (s : State) : afterSink (countSample s) = countSample (afterSink s) := by
  cases h : s.sinkIn <;> simp [afterSink, countSample, h]

/-- Settles O28: the push is the store alone. -/
theorem frameSampleStores : Obligations.FrameSampleStores := by
  intro s x hrun hf hcnt
  refine ⟨fbStore x (countSample s), ?_, rfl, ?_, fun i hi => ?_⟩
  · rw [exec_sample_streaming hrun, takeSample_frame hf, fbPush_stores (s := countSample s) hcnt]
  · rw [fbStore_fcnt, countSample_fcnt]
    bv_omega
  · simp [Vector.getElem_setIfInBounds, eq_comm]

/-- Settles O29, by the three outcomes of the frame's cycle. -/
theorem frameSampleCompletes : Obligations.FrameSampleCompletes := by
  intro s x hrun hf hsess hcnt f u a
  have hexec : exec (.sample x) s = .next (frameCycle f (withFrame f (countSample s))) := by
    rw [exec_sample_streaming hrun, takeSample_frame hf, fbPush_completes (s := countSample s) hcnt]
    rfl
  have ha : afterUnit (withFrame f (countSample s)) = withFrame f (countSample a) := by
    rw [afterUnit_withFrame, afterUnit_countSample]
  have hk : afterSink (withFrame f (countSample a)) = withFrame f (countSample (afterSink a)) := by
    rw [afterSink_withFrame, afterSink_countSample]
  have hanswer : sinkAnswer (afterUnit (withFrame f (countSample s))) u = sinkAnswer a u := by rw [ha]; rfl
  refine ⟨fun hlen => ?_, fun hmin hmax hw => ?_, fun c hmin hmax hw => ?_⟩
  · rw [hexec, frameCycle_bad_length (s := withFrame f (countSample s)) hlen hsess, ha]
    rfl
  · rw [hexec, frameCycle_written (s := withFrame f (countSample s)) hmin hmax (hanswer.trans hw), ha, hk]
    rfl
  · rw [hexec, frameCycle_refused (s := withFrame f (countSample s)) hmin hmax (hanswer.trans hw) hsess, ha, hk]
    rfl

end Sys2Proof.Machine

/-! ### What each command leaves unchanged (43_pipeline.md R172 to R186, 60_exceptions.md R215) -/

namespace Sys2Proof.Machine

/-! #### What START and EOS can do -/

theorem afterOpening_of_error {o : State} (h : o.runState = .error) : afterOpening o = o := if_pos h

theorem afterOpening_of_no_error {o : State} (h : o.runState ≠ .error) : afterOpening o = setRun .streaming o := if_neg h

theorem afterDraining_of_error {d : State} (h : d.runState = .error) : afterDraining d = d := if_pos h

theorem afterDraining_of_no_error {d : State} (h : d.runState ≠ .error) :
    afterDraining d = setRun .done (sessionRelease d) := if_neg h

/-- START moves to Streaming: at once, or in FRAME once the session is open; a failed open leaves the run in Error. -/
theorem beginRun_cases {s : State} (hrun : s.runState ≠ .error) :
    (s.fmtCode ≠ .frame ∧ beginRun s = setRun .streaming s) ∨
      (s.fmtCode = .frame ∧ openAnswer s = .ok ∧
        beginRun s = setRun .streaming (setSess .opened (afterOpen (logCall .open_ s)))) ∨
      (s.fmtCode = .frame ∧ ∃ c, openAnswer s = .fail c ∧
        beginRun s = enterError .encoderInit c (afterOpen (logCall .open_ s))) := by
  by_cases hf : s.fmtCode = .frame
  · rw [beginRun_frame hf]
    rcases encOpen_cases s with ⟨hok, h⟩ | ⟨c, hfail, h⟩ <;> rw [h]
    · exact .inr (.inl ⟨hf, hok, afterOpening_of_no_error (by simpa using hrun)⟩)
    · exact .inr (.inr ⟨hf, c, hfail, afterOpening_of_error (by simp)⟩)
  · exact .inl ⟨hf, beginRun_not_frame hf⟩

/-- EOS ends Done: at once, or in FRAME once the buffer is flushed and the session released; a failed flush leaves the run
in Error. -/
theorem endStream_cases (s : State) :
    (s.fmtCode ≠ .frame ∧ endStream s = setRun .done s) ∨
      (s.fmtCode = .frame ∧ (fbFlush (setRun .draining s)).runState ≠ .error ∧
        endStream s = setRun .done (sessionRelease (fbFlush (setRun .draining s)))) ∨
      (s.fmtCode = .frame ∧ (fbFlush (setRun .draining s)).runState = .error ∧
        endStream s = fbFlush (setRun .draining s)) := by
  by_cases hf : s.fmtCode = .frame
  · rw [endStream_frame hf]
    by_cases he : (fbFlush (setRun .draining s)).runState = .error
    · exact .inr (.inr ⟨hf, he, afterDraining_of_error he⟩)
    · exact .inr (.inl ⟨hf, he, afterDraining_of_no_error he⟩)
  · exact .inl ⟨hf, endStream_not_frame hf⟩

/-! #### The registers of the setup: no command but CFG writes one, and CFG only FMT -/

/-- The parameter, the past records and the host's events stay. -/
def SameHost (s t : State) : Prop := t.hasCancel = s.hasCancel ∧ t.past = s.past ∧ t.hostIn = s.hostIn

/-- FMT stays. -/
def SameFormat (s t : State) : Prop := t.fmtCode = s.fmtCode ∧ t.fmtCfgd = s.fmtCfgd

theorem beginRun_setup {s : State} (hrun : s.runState ≠ .error) :
    SameHost s (beginRun s) ∧ SameFormat s (beginRun s) := by
  rcases beginRun_cases hrun with ⟨_, h⟩ | ⟨_, _, h⟩ | ⟨_, _, _, h⟩ <;> simp [h, SameHost, SameFormat]

theorem takeSample_setup (x : Sample) (s : State) :
    SameHost s (takeSample x s) ∧ SameFormat s (takeSample x s) := by
  by_cases hf : s.fmtCode = .frame
  · simp [takeSample_frame hf, SameHost, SameFormat]
  · simp [takeSample_not_frame hf, SameHost, SameFormat]

theorem endStream_setup (s : State) : SameHost s (endStream s) ∧ SameFormat s (endStream s) := by
  rcases endStream_cases s with ⟨_, h⟩ | ⟨_, _, h⟩ | ⟨_, _, h⟩ <;> simp [h, SameHost, SameFormat]

theorem enterError_setup (k : ErrKind) (c : Cause) (s : State) :
    SameHost s (enterError k c s) ∧ SameFormat s (enterError k c s) := by
  simp [SameHost, SameFormat]

theorem effectOf_sameHost (i : Instr) {s : State} (hrun : s.runState ≠ .error) : SameHost s (effectOf i s) := by
  cases i with
  | cfg f => exact ⟨rfl, rfl, rfl⟩
  | start => exact (beginRun_setup hrun).1
  | sample x => exact (takeSample_setup x s).1
  | eos => exact (endStream_setup s).1
  | srcerr c => exact (enterError_setup _ c s).1
  | cancel => exact (enterError_setup _ 0 s).1

theorem effectOf_sameFormat {i : Instr} {s : State} (hrun : s.runState ≠ .error) (hi : ∀ f, i ≠ .cfg f) :
    SameFormat s (effectOf i s) := by
  cases i with
  | cfg f => exact absurd rfl (hi f)
  | start => exact (beginRun_setup hrun).2
  | sample x => exact (takeSample_setup x s).2
  | eos => exact (endStream_setup s).2
  | srcerr c => exact (enterError_setup _ c s).2
  | cancel => exact (enterError_setup _ 0 s).2

/-! #### The frame buffer: only SAMPLE and EOS in FRAME write it (R135) -/

theorem beginRun_buffer {s : State} (hrun : s.runState ≠ .error) :
    (beginRun s).fbuf = s.fbuf ∧ (beginRun s).fcnt = s.fcnt := by
  rcases beginRun_cases hrun with ⟨_, h⟩ | ⟨_, _, h⟩ | ⟨_, _, _, h⟩ <;> simp [h]

theorem effectOf_buffer {i : Instr} {s : State} (hrun : s.runState ≠ .error)
    (h : s.fmtCode ≠ .frame ∨ ((∀ x, i ≠ .sample x) ∧ i ≠ .eos)) :
    (effectOf i s).fbuf = s.fbuf ∧ (effectOf i s).fcnt = s.fcnt := by
  cases i with
  | cfg f => exact ⟨rfl, rfl⟩
  | start => exact beginRun_buffer hrun
  | sample x =>
    have hf : s.fmtCode ≠ .frame := h.resolve_right fun hne => hne.1 x rfl
    simp [effectOf, takeSample_not_frame hf]
  | eos =>
    have hf : s.fmtCode ≠ .frame := h.resolve_right fun hne => hne.2 rfl
    simp [effectOf, endStream_not_frame hf]
  | srcerr c => simp [effectOf]
  | cancel => simp [effectOf]

/-! #### STATE, SESS and the error registers: an operation that may fail leaves them, or enters Error -/

/-- ERR and ERRINFO stay. -/
def SameError (s t : State) : Prop := t.err = s.err ∧ t.errinfo = s.errinfo

/-- Unless `t` is in Error it has the STATE, the SESS and the error registers of `s`. -/
def KeptUnlessFailed (s t : State) : Prop :=
  t.runState ≠ .error → t.runState = s.runState ∧ t.sess = s.sess ∧ SameError s t

theorem emitUnit_keptUnlessFailed (u : List Byte) (s : State) : KeptUnlessFailed s (emitUnit u s) := by
  intro hne
  rcases emitUnit_registers u s with ⟨hrun, hsess, herr, hinfo, -⟩ | ⟨hrun, -⟩
  · exact ⟨hrun, hsess, herr, hinfo⟩
  · exact absurd hrun hne

theorem frameCycle_keptUnlessFailed (f : Frame) (s : State) : KeptUnlessFailed s (frameCycle f s) := by
  intro hne
  rcases frameCycle_registers f s with ⟨hrun, hsess, herr, hinfo, -⟩ | ⟨hrun, -⟩
  · exact ⟨hrun, hsess, herr, hinfo⟩
  · exact absurd hrun hne

theorem fbPush_keptUnlessFailed (x : Sample) (s : State) : KeptUnlessFailed s (fbPush x s) := by
  rcases fbPush_cases x s with ⟨_, h⟩ | ⟨_, h⟩ <;> rw [h]
  · exact frameCycle_keptUnlessFailed _ (clearCount (fbStore x s))
  · exact fun _ => ⟨rfl, rfl, rfl, rfl⟩

theorem fbFlush_keptUnlessFailed (s : State) : KeptUnlessFailed s (fbFlush s) := by
  rcases fbFlush_cases s with ⟨_, h⟩ | ⟨_, h⟩ <;> rw [h]
  · exact fun _ => ⟨rfl, rfl, rfl, rfl⟩
  · simpa [KeptUnlessFailed, SameError, fbHandoff] using
      frameCycle_keptUnlessFailed (padBuffer s).fbuf (clearCount (padBuffer s))

theorem takeSample_keptUnlessFailed (x : Sample) (s : State) : KeptUnlessFailed s (takeSample x s) := by
  by_cases hf : s.fmtCode = .frame
  · rw [takeSample_frame hf]
    exact fbPush_keptUnlessFailed x (countSample s)
  · rw [takeSample_not_frame hf]
    exact emitUnit_keptUnlessFailed _ (countSample s)

theorem beginRun_sameError {s : State} (hrun : s.runState ≠ .error) (hne : (beginRun s).runState ≠ .error) :
    SameError s (beginRun s) := by
  rcases beginRun_cases hrun with ⟨_, h⟩ | ⟨_, _, h⟩ | ⟨_, _, _, h⟩
  · simp [h, SameError]
  · simp [h, SameError]
  · simp [h] at hne

theorem endStream_sameError {s : State} (hne : (endStream s).runState ≠ .error) : SameError s (endStream s) := by
  rcases endStream_cases s with ⟨_, h⟩ | ⟨_, hflush, h⟩ | ⟨_, hflush, h⟩
  · simp [h, SameError]
  · obtain ⟨-, -, herr⟩ := fbFlush_keptUnlessFailed (setRun .draining s) hflush
    simpa [h, SameError] using herr
  · exact absurd (h ▸ hflush) hne

theorem effectOf_sameError {i : Instr} {s : State} (hrun : s.runState ≠ .error)
    (hne : (effectOf i s).runState ≠ .error) : SameError s (effectOf i s) := by
  cases i with
  | cfg f => exact ⟨rfl, rfl⟩
  | start => exact beginRun_sameError hrun hne
  | sample x =>
    obtain ⟨-, -, herr⟩ := takeSample_keptUnlessFailed x s hne
    exact herr
  | eos => exact endStream_sameError hne
  | srcerr c => exact absurd (enterError_runState _ c s) hne
  | cancel => exact absurd (enterError_runState _ 0 s) hne

/-! #### The records and the agents' answers -/

theorem effectOf_nsamp {i : Instr} {s : State} (hrun : s.runState ≠ .error) (hi : ∀ x, i ≠ .sample x) :
    (effectOf i s).obs.nsamp = s.obs.nsamp := by
  cases i with
  | cfg f => rfl
  | start => rcases beginRun_cases hrun with ⟨_, h⟩ | ⟨_, _, h⟩ | ⟨_, _, _, h⟩ <;> simp [effectOf, h]
  | sample x => exact absurd rfl (hi x)
  | eos => rcases endStream_cases s with ⟨_, h⟩ | ⟨_, _, h⟩ | ⟨_, _, h⟩ <;> simp [effectOf, h]
  | srcerr c => simp [effectOf]
  | cancel => simp [effectOf]

/-- No write and no frame: OUT, NWRITES, NFRAMES, the sink's answers and the encoder's units stay. -/
def NothingSent (s t : State) : Prop :=
  t.obs.out = s.obs.out ∧ t.obs.nwrites = s.obs.nwrites ∧ t.obs.nframes = s.obs.nframes ∧ t.sinkIn = s.sinkIn ∧
    t.encIn = s.encIn

theorem beginRun_nothingSent {s : State} (hrun : s.runState ≠ .error) : NothingSent s (beginRun s) := by
  rcases beginRun_cases hrun with ⟨_, h⟩ | ⟨_, _, h⟩ | ⟨_, _, _, h⟩ <;> simp [h, NothingSent]

theorem effectOf_nothingSent {i : Instr} {s : State} (hrun : s.runState ≠ .error) (hsample : ∀ x, i ≠ .sample x)
    (heos : i ≠ .eos) : NothingSent s (effectOf i s) := by
  cases i with
  | cfg f => exact ⟨rfl, rfl, rfl, rfl, rfl⟩
  | start => exact beginRun_nothingSent hrun
  | sample x => exact absurd rfl (hsample x)
  | eos => exact absurd rfl heos
  | srcerr c => simp [effectOf, NothingSent]
  | cancel => simp [effectOf, NothingSent]

theorem effectOf_no_frame (i : Instr) {s : State} (hf : s.fmtCode ≠ .frame) :
    (effectOf i s).encIn = s.encIn ∧ (effectOf i s).obs.nframes = s.obs.nframes := by
  cases i with
  | cfg f => exact ⟨rfl, rfl⟩
  | start => simp [effectOf, beginRun_not_frame hf]
  | sample x => simp [effectOf, takeSample_not_frame hf]
  | eos => simp [effectOf, endStream_not_frame hf]
  | srcerr c => simp [effectOf]
  | cancel => simp [effectOf]

theorem takeSample_openIn (x : Sample) (s : State) : (takeSample x s).openIn = s.openIn := by
  by_cases hf : s.fmtCode = .frame
  · simp [takeSample_frame hf]
  · simp [takeSample_not_frame hf]

theorem endStream_openIn (s : State) : (endStream s).openIn = s.openIn := by
  rcases endStream_cases s with ⟨_, h⟩ | ⟨_, _, h⟩ | ⟨_, _, h⟩ <;> simp [h]

theorem effectOf_openIn {i : Instr} (s : State) (hi : i ≠ .start) : (effectOf i s).openIn = s.openIn := by
  cases i with
  | cfg f => rfl
  | start => exact absurd rfl hi
  | sample x => exact takeSample_openIn x s
  | eos => exact endStream_openIn s
  | srcerr c => exact enterError_openIn _ c s
  | cancel => exact enterError_openIn _ 0 s

/-- Settles O32: a command consumed in Error changes nothing, and each clause is a lemma on the effects of the commands. -/
theorem commandFrame : Obligations.CommandFrame := by
  intro i s t h
  rcases exec_next h with ⟨_, rfl⟩ | ⟨hrun, _, rfl⟩
  · simp
  · refine ⟨effectOf_sameHost i hrun, effectOf_sameFormat hrun, effectOf_buffer hrun, fun hne => ?_, ?_, ?_,
      effectOf_nsamp hrun, effectOf_nothingSent hrun, effectOf_no_frame i, effectOf_openIn s⟩
    · exact effectOf_sameError hrun (hne.resolve_right hrun)
    · rintro ⟨f, rfl⟩
      exact ⟨rfl, rfl⟩
    · rintro ⟨x, rfl⟩ hne
      obtain ⟨hstate, hsess, -⟩ := takeSample_keptUnlessFailed x s hne
      exact ⟨hstate, hsess⟩

/-! ### A partial frame in Error (41_frame_buffer.md R144) -/

/-- A command that fails with a frame in the buffer is an abort: START finds the buffer empty, and a frame that a SAMPLE or
EOS sends has left it. -/
theorem effectOf_abort_of_partial {i : Instr} {s : State} (hs : BoundaryInv s) (hrun : s.runState ≠ .error)
    (hl : legal s i = true) (he : (effectOf i s).runState = .error) (hcnt : (effectOf i s).fcnt ≠ 0) :
    (∃ c, i = .srcerr c) ∨ i = .cancel := by
  cases i with
  | cfg f => exact absurd he hrun
  | start =>
    simp only [legal, Bool.and_eq_true, decide_eq_true_eq] at hl
    obtain ⟨hidle, -⟩ := hl
    obtain ⟨-, hzero, -⟩ := hs.idleClean hidle
    obtain ⟨-, hkept⟩ := beginRun_buffer hrun
    exact absurd (hkept.trans hzero) hcnt
  | sample x =>
    by_cases hf : s.fmtCode = .frame
    · rw [effectOf, takeSample_frame hf] at he hcnt
      rcases fbPush_cases x (countSample s) with ⟨_, h⟩ | ⟨_, h⟩ <;> rw [h] at he hcnt
      · simp [fbHandoff] at hcnt
      · exact absurd he hrun
    · obtain ⟨-, hkept⟩ := effectOf_buffer (i := .sample x) hrun (.inl hf)
      exact absurd (hkept.trans (hs.count_eq_zero hf)) hcnt
  | eos =>
    rcases endStream_cases s with ⟨_, h⟩ | ⟨_, _, h⟩ | ⟨_, _, h⟩
    · simp [effectOf, h] at he
    · simp [effectOf, h] at he
    · simp [effectOf, h] at hcnt
  | srcerr c => exact .inl ⟨c, rfl⟩
  | cancel => exact .inr rfl

@[simp] theorem encodedFrames_append_close (l : List EncCall) : encodedFrames (l ++ [.close]) = encodedFrames l := by
  simp [encodedFrames, EncCall.frame?]

theorem enterError_encodedFrames (k : ErrKind) (c : Cause) (s : State) :
    encodedFrames (enterError k c s).obs.encLog = encodedFrames s.obs.encLog := by
  rw [enterError_encLog]
  split <;> simp

/-- Error entry leaves the buffer, the frames submitted and OUT. -/
theorem enterError_keeps_partial (k : ErrKind) (c : Cause) (s : State) :
    (enterError k c s).fcnt = s.fcnt ∧ (enterError k c s).fbuf = s.fbuf ∧
      encodedFrames (enterError k c s).obs.encLog = encodedFrames s.obs.encLog ∧
      (enterError k c s).obs.out = s.obs.out :=
  ⟨enterError_fcnt k c s, enterError_fbuf k c s, enterError_encodedFrames k c s, enterError_out k c s⟩

/-- Settles O36: only an abort enters Error with a frame in the buffer, and an abort is error entry alone. -/
theorem partialFrameLostOnlyByAbort : Obligations.PartialFrameLostOnlyByAbort := by
  intro s t i hs hrun h he hcnt
  rcases exec_next h with ⟨herr, _⟩ | ⟨_, hl, rfl⟩
  · exact absurd herr hrun
  · have habort := effectOf_abort_of_partial hs hrun hl he hcnt
    refine ⟨habort, ?_⟩
    rcases habort with ⟨c, rfl⟩ | rfl <;> exact enterError_keeps_partial _ _ s

end Sys2Proof.Machine

/-! ### A FRAME run (41_frame_buffer.md R139 to R142, 43_pipeline.md R191) -/

namespace Sys2Proof.Machine

/-! #### Running presented commands one at a time -/

theorem presenting_self {is : List Instr} {s : State} (h : s.hostIn = is.map fun i => .word (encode i)) :
    presenting is s = s := by
  rw [presenting, ← h]

theorem run_succ_of_step {M : Host.Core} {k : Nat} {s t : M.State} (h : M.step s = .next t) :
    M.run (k + 1) s = M.run k t := by
  simp only [Host.Core.run, h]

theorem runCommands_cons_of_step {i : Instr} {is : List Instr} {s t : State}
    (h : step (presenting (i :: is) s) = .next (presenting is t)) : runCommands (i :: is) s = runCommands is t :=
  run_succ_of_step (M := Sys2Proof.core) h

/-- A legal command is decoded to itself and takes its effect; the rest of the commands stay presented. -/
theorem runCommands_cons {i : Instr} (is : List Instr) {s : State} (hrun : s.runState ≠ .error)
    (hwf : wellFormed s.hasCancel i = true) (hl : legal s i = true) :
    runCommands (i :: is) s = runCommands is (effectOf i (presenting is s)) := by
  have hstep : step (presenting (i :: is) s) = exec i (presenting is s) := step_of_command rfl hrun (decode_encode hwf)
  have hexec : exec i (presenting is s) = .next (effectOf i (presenting is s)) :=
    exec_of_legal hrun (by cases i <;> exact hl)
  obtain ⟨-, -, hhost⟩ := effectOf_sameHost i (s := presenting is s) hrun
  exact runCommands_cons_of_step (by rw [hstep, hexec, presenting_self hhost])

theorem runCommands_nil (s : State) : runCommands [] s = .next (presenting [] s) := rfl

/-- In Error the rest of the run is consumed. -/
theorem runCommands_of_error (is : List Instr) {s : State} (h : s.runState = .error) :
    runCommands is s = .next (presenting [] s) := by
  induction is with
  | nil => rfl
  | cons i is ih => exact (runCommands_cons_of_step (step_of_word_in_error rfl h)).trans ih

/-! #### The samples in the buffer -/

/-- The samples in the buffer, oldest first. -/
def buffered (s : State) : List Sample := s.fbuf.toList.take s.fcnt.toNat

theorem buffered_of_empty {s : State} (h : s.fcnt = 0) : buffered s = [] := by
  simp [buffered, h]

/-- A push appends to the samples in the buffer. -/
theorem buffered_fbStore {s : State} (h : countInRange s) (x : Sample) : buffered (fbStore x s) = buffered s ++ [x] := by
  have hcnt : (s.fcnt + 1).toNat = s.fcnt.toNat + 1 := by bv_omega
  have hlt : s.fcnt.toNat < (s.fbuf.toList.set s.fcnt.toNat x).length := by simp; omega
  rw [buffered, fbStore_fcnt, hcnt, fbStore_fbuf, Vector.toList_setIfInBounds, List.take_succ_eq_append_getElem hlt]
  simp [buffered, List.take_set_of_le]

/-- A completed frame is the samples in the buffer and the 80th. -/
theorem completedFrame_toList {s : State} (h : s.fcnt = 79) (x : Sample) :
    (completedFrame s x).toList = buffered s ++ [x] := by
  rw [← buffered_fbStore (by simp [h]) x, buffered, fbStore_fcnt, h, fbStore_fbuf_completed h]
  exact (List.take_of_length_le (by simp)).symm

theorem completedFrame_countSample (s : State) (x : Sample) :
    completedFrame (countSample s) x = completedFrame s x := rfl

/-! #### The frames of a stream -/

theorem streamFrames_nil : streamFrames [] = [] := rfl

theorem streamFrames_length (xs : List Sample) : (streamFrames xs).length = (xs.length + 79) / 80 := by
  simp [streamFrames, frameCount]

theorem streamFrames_get (xs : List Sample) {j i : Nat} (hj : j < (streamFrames xs).length) (hi : i < 80) :
    (streamFrames xs)[j][i] = xs.getD (80 * j + i) 0 := by
  simp [streamFrames, paddedSample]

/-- The first 80 samples of a stream are its first frame. -/
theorem streamFrames_append (f : Frame) (xs : List Sample) :
    streamFrames (f.toList ++ xs) = f :: streamFrames xs := by
  apply List.ext_getElem
  · simp only [streamFrames_length, List.length_append, Vector.length_toList, List.length_cons]
    omega
  · intro j hj _
    ext i hi : 1
    rw [streamFrames_get _ hj hi]
    cases j with
    | zero =>
      rw [List.getD_append _ _ _ _ (by simpa using hi)]
      simp [hi]
    | succ j =>
      rw [List.getElem_cons_succ, streamFrames_get _ _ hi, List.getD_append_right _ _ _ _ (by simp; omega),
        Vector.length_toList, show 80 * (j + 1) + i - 80 = 80 * j + i by omega]

/-- A stream of 1 to 80 samples is one frame, padded from the end of the stream on (R136). -/
theorem streamFrames_take (f : Frame) {k : Nat} (h0 : k ≠ 0) (hk : k ≤ 80) :
    streamFrames (f.toList.take k) = [padFrom k f] := by
  apply List.ext_getElem
  · simp only [streamFrames_length, List.length_take, Vector.length_toList, List.length_singleton]
    omega
  · intro j hj hj'
    obtain rfl : j = 0 := by simpa using hj'
    ext i hi : 1
    rw [streamFrames_get _ hj hi, List.getElem_cons_zero, padFrom_get _ _ _ hi]
    by_cases hik : i < k <;> simp [hik, hi]

/-! #### Delivering frames -/

/-- The block once the frame `f` was encoded and its unit accepted by the sink (R157). -/
def delivered (f : Frame) (s : State) : State :=
  { afterSink (afterUnit s) with
    obs := { s.obs with out := s.obs.out ++ unitAnswer s f, encLog := s.obs.encLog ++ [.encode f],
                        nframes := s.obs.nframes + 1, nwrites := s.obs.nwrites + 1 } }

/-- A frame's cycle fails, or delivers the frame in a unit of legal length. -/
theorem frameCycle_error_or_delivered (f : Frame) {s : State} (hs : s.sess = .opened) :
    (frameCycle f s).runState = .error ∨
      ((1 ≤ (unitAnswer s f).length ∧ (unitAnswer s f).length ≤ 10) ∧ frameCycle f s = delivered f s) := by
  by_cases hlen : 1 ≤ (unitAnswer s f).length ∧ (unitAnswer s f).length ≤ 10
  · obtain ⟨hmin, hmax⟩ := hlen
    cases hw : sinkAnswer (afterUnit s) (unitAnswer s f) with
    | ok => exact .inr ⟨⟨hmin, hmax⟩, frameCycle_written hmin hmax hw⟩
    | fail c => exact .inl (by rw [frameCycle_refused hmin hmax hw hs])
  · exact .inl (by rw [frameCycle_bad_length (by omega) hs])

/-- From `s` to the record `o` exactly the frames `fs` were delivered, each in a unit of legal length, and then the session
was closed (R161). -/
structure DeliversAndCloses (fs : List Frame) (s : State) (o : RunRecord) : Prop where
  nframes : o.nframes = s.obs.nframes + fs.length
  encLog : o.encLog = s.obs.encLog ++ fs.map .encode ++ [.close]
  units : ∀ u ∈ encoderUnits fs s, 1 ≤ u.length ∧ u.length ≤ 10
  out : o.out = s.obs.out ++ (encoderUnits fs s).flatten

/-- The agents will answer alike, and the records of frames and bytes are the same. -/
def SameOutside (s t : State) : Prop :=
  (t.encIn = s.encIn ∧ t.sinkIn = s.sinkIn ∧ t.drawn = s.drawn) ∧
    t.obs.nframes = s.obs.nframes ∧ t.obs.encLog = s.obs.encLog ∧ t.obs.out = s.obs.out

theorem DeliversAndCloses.of_sameOutside {fs : List Frame} {s s' : State} {o : RunRecord}
    (h : DeliversAndCloses fs s' o) (hs : SameOutside s s') : DeliversAndCloses fs s o := by
  obtain ⟨⟨henc, hsink, hdrawn⟩, hframes, hlog, hout⟩ := hs
  have hunits := encoderUnits_congr fs henc hsink hdrawn
  exact ⟨hframes ▸ h.nframes, hlog ▸ h.encLog, hunits ▸ h.units, hunits ▸ hout ▸ h.out⟩

theorem deliversAndCloses_nil {s : State} (hs : s.sess = .opened) :
    DeliversAndCloses [] s (setRun .done (sessionRelease s)).obs := by
  constructor <;> simp [hs]

theorem DeliversAndCloses.cons {f : Frame} {fs : List Frame} {s : State} {o : RunRecord}
    (hlen : 1 ≤ (unitAnswer s f).length ∧ (unitAnswer s f).length ≤ 10) (h : DeliversAndCloses fs (delivered f s) o) :
    DeliversAndCloses (f :: fs) s o := by
  have hunits : encoderUnits fs (delivered f s) = encoderUnits fs (afterSink (afterUnit s)) :=
    encoderUnits_congr fs rfl rfl rfl
  obtain ⟨hframes, hlog, hlegal, hout⟩ := h
  rw [hunits] at hlegal hout
  refine ⟨?_, ?_, ?_, ?_⟩
  · simp only [hframes, delivered, List.length_cons]
    omega
  · simp [hlog, delivered]
  · simpa using ⟨hlen, hlegal⟩
  · simp [hout, delivered]

/-! #### The run from START on -/

/-- A FRAME run between two commands (R43.3, R34). -/
structure InFrameRun (s : State) : Prop where
  run : s.runState = .streaming
  code : s.fmtCode = .frame
  sess : s.sess = .opened
  count : countInRange s

theorem delivered_inFrameRun {s : State} (hs : InFrameRun s) (f : Frame) : InFrameRun (delivered f s) := by
  obtain ⟨hrun, hf, hsess, hcnt⟩ := hs
  exact ⟨by simpa [delivered], by simpa [delivered], by simpa [delivered], by simpa [delivered]⟩

/-- EOS delivers what is in the buffer, or ends the run in Error. -/
theorem endStream_delivers {s : State} (hs : InFrameRun s) :
    (endStream s).runState = .error ∨ DeliversAndCloses (streamFrames (buffered s)) s (endStream s).obs := by
  obtain ⟨hrun, hf, hsess, hcnt⟩ := hs
  rw [endStream_frame hf]
  rcases fbFlush_cases (setRun .draining s) with ⟨h0, hflush⟩ | ⟨h0, hflush⟩ <;> rw [hflush]
  · right
    rw [buffered_of_empty (s := s) h0, streamFrames_nil, afterDraining_of_no_error (by simp)]
    exact (deliversAndCloses_nil (s := setRun .draining s) hsess).of_sameOutside ⟨⟨rfl, rfl, rfl⟩, rfl, rfl, rfl⟩
  · have hframes : streamFrames (buffered s) = [(padBuffer (setRun .draining s)).fbuf] := by
      rw [padBuffer_fbuf]
      exact streamFrames_take s.fbuf (fun h => h0 (BitVec.eq_of_toNat_eq h)) (by omega)
    have hopen : (clearCount (padBuffer (setRun .draining s))).sess = .opened := by simpa using hsess
    rw [hframes, fbHandoff]
    rcases frameCycle_error_or_delivered (padBuffer (setRun .draining s)).fbuf hopen with herr | ⟨hlen, hcycle⟩
    · exact .inl (by rw [afterDraining_of_error herr, herr])
    · right
      rw [hcycle, afterDraining_of_no_error (by simp [delivered])]
      exact ((deliversAndCloses_nil (by simpa [delivered])).cons hlen).of_sameOutside (by simp [SameOutside])

/-- A SAMPLE ends the run in Error, or leaves a FRAME run whose frames to come, after the one it may have delivered, are the
frames of the sample and the samples to come. -/
theorem takeSample_delivers {s : State} (hs : InFrameRun s) (x : Sample) :
    (takeSample x s).runState = .error ∨
      (InFrameRun (takeSample x s) ∧ ∀ (xs : List Sample) (o : RunRecord),
        DeliversAndCloses (streamFrames (buffered (takeSample x s) ++ xs)) (takeSample x s) o →
          DeliversAndCloses (streamFrames (buffered s ++ x :: xs)) s o) := by
  obtain ⟨hrun, hf, hsess, hcnt⟩ := hs
  rw [takeSample_frame hf]
  rcases Nat.lt_or_ge s.fcnt.toNat 79 with hlt | hge
  · have hcount : countInRange (fbStore x (countSample s)) := by
      rw [countInRange, fbStore_fcnt, countSample_fcnt]
      bv_omega
    right
    rw [fbPush_stores (s := countSample s) hlt, buffered_fbStore (s := countSample s) hcnt]
    refine ⟨⟨hrun, hf, hsess, hcount⟩, fun xs o h => ?_⟩
    rw [← List.append_cons] at h
    exact h.of_sameOutside ⟨⟨rfl, rfl, rfl⟩, rfl, rfl, rfl⟩
  · have hfull : s.fcnt = 79 := by bv_omega
    rw [fbPush_completes (s := countSample s) hfull, completedFrame_countSample]
    rcases frameCycle_error_or_delivered (completedFrame s x)
      (s := withFrame (completedFrame s x) (countSample s)) hsess with herr | ⟨hlen, hcycle⟩
    · exact .inl herr
    · right
      have hempty : buffered (delivered (completedFrame s x) (withFrame (completedFrame s x) (countSample s))) = [] :=
        buffered_of_empty (by simp [delivered, withFrame])
      rw [hcycle, hempty]
      refine ⟨delivered_inFrameRun (s := withFrame _ (countSample s)) ⟨hrun, hf, hsess, Nat.zero_le _⟩ _,
        fun xs o h => ?_⟩
      rw [List.append_cons, ← completedFrame_toList hfull, streamFrames_append]
      exact (h.cons hlen).of_sameOutside ⟨⟨rfl, rfl, rfl⟩, rfl, rfl, rfl⟩

/-- The samples and EOS of a FRAME run all execute or are consumed; a run that ends Done has delivered the frames of the
samples in the buffer and those presented. -/
theorem runCommands_samples_eos (xs : List Sample) {s : State} (hs : InFrameRun s) :
    ∃ t, runCommands (xs.map .sample ++ [.eos]) s = .next t ∧
      (t.runState = .done → DeliversAndCloses (streamFrames (buffered s ++ xs)) s t.obs) := by
  induction xs generalizing s with
  | nil =>
    rw [List.map_nil, List.nil_append, List.append_nil,
      runCommands_cons [] (by simp [hs.run]) rfl (by simp [legal, hs.run])]
    refine ⟨_, runCommands_nil _, fun hdone => ?_⟩
    have hs' : InFrameRun (presenting [] s) := ⟨hs.run, hs.code, hs.sess, hs.count⟩
    rcases endStream_delivers hs' with herr | h
    · exact absurd (herr.symm.trans hdone) (by simp)
    · exact h.of_sameOutside ⟨⟨rfl, rfl, rfl⟩, rfl, rfl, rfl⟩
  | cons x xs ih =>
    rw [List.map_cons, List.cons_append, runCommands_cons _ (by simp [hs.run]) rfl (by simp [legal, hs.run])]
    have hs' : InFrameRun (presenting (xs.map .sample ++ [.eos]) s) := ⟨hs.run, hs.code, hs.sess, hs.count⟩
    rcases takeSample_delivers hs' x with herr | ⟨hnext, hdelivers⟩
    · exact ⟨_, runCommands_of_error _ herr, fun hdone => absurd (herr.symm.trans hdone) (by simp)⟩
    · obtain ⟨t, hrun, h⟩ := ih hnext
      refine ⟨t, hrun, fun hdone => ?_⟩
      exact (hdelivers xs t.obs (h hdone)).of_sameOutside ⟨⟨rfl, rfl, rfl⟩, rfl, rfl, rfl⟩

/-! #### The run from reset on -/

theorem runCommands_cfg_start (f : Format) (is : List Instr) {s : State} (hidle : s.runState = .idle) :
    runCommands (.cfg f :: .start :: is) s = runCommands is (beginRun (selectFormat f (presenting is s))) := by
  rw [runCommands_cons _ (by simp [hidle]) rfl (by simp [legal, hidle])]
  exact runCommands_cons is (s := selectFormat f (presenting (.start :: is) s)) (by simp [presenting, hidle]) rfl
    (by simp [legal, presenting, hidle])

theorem afterOpen_drawn_congr {s t : State} (h : t.openIn = s.openIn) (d : t.drawn = s.drawn) :
    (afterOpen t).drawn = (afterOpen s).drawn := by
  cases hs : s.openIn <;> simp [afterOpen, h, hs, d]

/-- START in FRAME ends the run in Error, or leaves a FRAME run with an empty buffer, one Open logged and one answer of the
encoder taken. -/
theorem beginRun_inFrameRun {s : State} (hidle : s.runState = .idle) (hf : s.fmtCode = .frame) (hcnt : s.fcnt = 0) :
    (beginRun s).runState = .error ∨
      (InFrameRun (beginRun s) ∧ buffered (beginRun s) = [] ∧
        (beginRun s).obs = { s.obs with encLog := s.obs.encLog ++ [.open_] } ∧
        (beginRun s).encIn = s.encIn ∧ (beginRun s).sinkIn = s.sinkIn ∧ (beginRun s).drawn = (afterOpen s).drawn) := by
  rcases beginRun_cases (s := s) (by simp [hidle]) with ⟨hne, _⟩ | ⟨_, _, h⟩ | ⟨_, c, _, h⟩
  · exact absurd hf hne
  · right
    rw [h]
    exact ⟨⟨rfl, by simpa, rfl, by simp [hcnt]⟩, buffered_of_empty (by simpa), by simp [logCall], by simp, by simp,
      afterOpen_drawn_congr rfl rfl⟩
  · exact .inl (by rw [h, enterError_runState])

/-- A FRAME run from reset executes or consumes every command. Where it ends Done, START has opened the session and the
frames of the stream were delivered, in the units the encoder returned after its answer to the open. -/
theorem runCommands_frame_stream (xs : List Sample) {s : State} (hs : Fresh s) :
    ∃ t, runCommands (streamCommands .frame xs) s = .next t ∧
      (t.runState = .done → t.obs.nframes = (streamFrames xs).length ∧
        t.obs.encLog = sessionLog (streamFrames xs) true ∧
        (∀ u ∈ encoderUnits (streamFrames xs) (afterOpen s), 1 ≤ u.length ∧ u.length ≤ 10) ∧
        t.obs.out = (encoderUnits (streamFrames xs) (afterOpen s)).flatten) := by
  obtain ⟨-, hidle, hcnt, -, -, -, hobs, -⟩ := hs
  rw [streamCommands, runCommands_cfg_start .frame _ hidle]
  rcases beginRun_inFrameRun (s := selectFormat .frame (presenting (xs.map .sample ++ [.eos]) s)) hidle rfl hcnt with
    herr | ⟨hstart, hempty, hrecord, henc, hsink, hdrawn⟩
  · exact ⟨_, runCommands_of_error _ herr, fun hdone => absurd (herr.symm.trans hdone) (by simp)⟩
  · obtain ⟨t, hrun, ht⟩ := runCommands_samples_eos xs hstart
    have hanswers := encoderUnits_congr (streamFrames xs) (henc.trans (afterOpen_encIn s).symm)
      (hsink.trans (afterOpen_sinkIn s).symm) (hdrawn.trans (afterOpen_drawn_congr rfl rfl))
    rw [hempty, List.nil_append] at ht
    refine ⟨t, hrun, fun hdone => ?_⟩
    obtain ⟨hframes, hlog, hunits, hout⟩ := ht hdone
    rw [hanswers] at hunits hout
    rw [hrecord, selectFormat_obs, presenting, hobs] at hframes hlog hout
    exact ⟨hframes.trans (Nat.zero_add _), hlog, hunits, hout⟩

/-- Units of 1 to 10 bytes: between as many bytes as units and ten times as many. -/
theorem flatten_length_bounds {us : List (List Byte)} (h : ∀ u ∈ us, 1 ≤ u.length ∧ u.length ≤ 10) :
    us.length ≤ us.flatten.length ∧ us.flatten.length ≤ 10 * us.length := by
  induction us with
  | nil => simp
  | cons u us ih =>
    obtain ⟨hu, hus⟩ := List.forall_mem_cons.1 h
    have := ih hus
    simp only [List.length_cons, List.flatten_cons, List.length_append]
    omega

/-- Settles O50: the delivered frames are those of the stream, 80 samples each, and their units bound the length of OUT. -/
theorem frameStreamAlignment : Obligations.FrameStreamAlignment := by
  intro s xs hs
  obtain ⟨t, hrun, ht⟩ := runCommands_frame_stream xs hs
  refine ⟨t, hrun, fun hdone => ?_⟩
  obtain ⟨hframes, hlog, hunits, hout⟩ := ht hdone
  have hbytes := flatten_length_bounds hunits
  rw [encoderUnits_length, ← hout] at hbytes
  exact ⟨hframes.trans (streamFrames_length xs), streamFrames xs, hlog, streamFrames_length xs,
    fun j hj i hi => streamFrames_get xs hj hi, hunits, hout, hbytes⟩

end Sys2Proof.Machine

/-! ### The encoder log (42_encoder_adapter.md R152, R153, R161): the frames submitted, and the log against SESS -/

namespace Sys2Proof.Machine

/-! #### The frames submitted: a command sends at most one, and NFRAMES counts it (R46, R153) -/

@[simp] theorem encodedFrames_append_open (l : List EncCall) : encodedFrames (l ++ [.open_]) = encodedFrames l := by
  simp [encodedFrames, EncCall.frame?]

@[simp] theorem encodedFrames_append_encode (l : List EncCall) (f : Frame) :
    encodedFrames (l ++ [.encode f]) = encodedFrames l ++ [f] := by
  simp [encodedFrames, EncCall.frame?]

/-- From `s` to `t` exactly the frames `fs` were submitted to the encoder, and NFRAMES counted them. -/
def Submits (fs : List Frame) (s t : State) : Prop :=
  encodedFrames t.obs.encLog = encodedFrames s.obs.encLog ++ fs ∧ t.obs.nframes = s.obs.nframes + fs.length

/-- From `s` to `t` no frame or one was submitted. -/
def SubmitsAtMostOne (s t : State) : Prop := Submits [] s t ∨ ∃ f, Submits [f] s t

theorem Submits.framesCounted {fs : List Frame} {s t : State} (h : Submits fs s t) (hs : framesCounted s) :
    framesCounted t := by
  obtain ⟨hframes, hcount⟩ := h
  rw [Machine.framesCounted, hframes, hcount, hs, List.length_append]

theorem submits_nil_of_obs_eq {s t : State} (h : t.obs = s.obs) : Submits [] s t := by simp [Submits, h]

theorem sessionRelease_encodedFrames (s : State) :
    encodedFrames (sessionRelease s).obs.encLog = encodedFrames s.obs.encLog := by
  rw [sessionRelease_encLog]
  split <;> simp

theorem enterError_submits (k : ErrKind) (c : Cause) (s : State) : Submits [] s (enterError k c s) :=
  ⟨(enterError_encodedFrames k c s).trans (List.append_nil _).symm, enterError_nframes k c s⟩

theorem emitUnit_submits (u : List Byte) (s : State) : Submits [] s (emitUnit u s) := by
  rcases emitUnit_cases u s with ⟨_, h⟩ | ⟨c, _, h⟩ <;> rw [h]
  · simp [Submits]
  · simpa [Submits] using enterError_submits .sinkWrite c (afterSink (countWrite s))

theorem frameCycle_submits (f : Frame) (s : State) : Submits [f] s (frameCycle f s) := by
  rcases frameCycle_cases f s with ⟨_, h⟩ | ⟨_, h⟩ <;> rw [h]
  · simpa [Submits] using emitUnit_submits (unitAnswer s f) (afterUnit (countFrame (logCall (.encode f) s)))
  · simpa [Submits] using enterError_submits .encoderInvariant (lengthCause (unitAnswer s f))
      (afterUnit (countFrame (logCall (.encode f) s)))

theorem fbHandoff_submits (s : State) : Submits [s.fbuf] s (fbHandoff s) := frameCycle_submits s.fbuf (clearCount s)

theorem fbPush_submits (x : Sample) (s : State) : SubmitsAtMostOne s (fbPush x s) := by
  rcases fbPush_cases x s with ⟨_, h⟩ | ⟨_, h⟩ <;> rw [h]
  · exact .inr ⟨_, fbHandoff_submits (fbStore x s)⟩
  · exact .inl (submits_nil_of_obs_eq rfl)

theorem fbFlush_submits (s : State) : SubmitsAtMostOne s (fbFlush s) := by
  rcases fbFlush_cases s with ⟨_, h⟩ | ⟨_, h⟩ <;> rw [h]
  · exact .inl (submits_nil_of_obs_eq rfl)
  · exact .inr ⟨_, by simpa [Submits] using fbHandoff_submits (padBuffer s)⟩

theorem beginRun_submits {s : State} (hrun : s.runState ≠ .error) : Submits [] s (beginRun s) := by
  rcases beginRun_cases hrun with ⟨_, h⟩ | ⟨_, _, h⟩ | ⟨_, c, _, h⟩ <;> rw [h]
  · exact submits_nil_of_obs_eq rfl
  · simp [Submits]
  · simpa [Submits] using enterError_submits .encoderInit c (afterOpen (logCall .open_ s))

/-- A SAMPLE submits no frame outside FRAME. -/
theorem takeSample_submits (x : Sample) (s : State) :
    Submits [] s (takeSample x s) ∨ s.fmtCode = .frame ∧ SubmitsAtMostOne s (takeSample x s) := by
  by_cases hf : s.fmtCode = .frame
  · rw [takeSample_frame hf]
    exact .inr ⟨hf, fbPush_submits x (countSample s)⟩
  · rw [takeSample_not_frame hf]
    exact .inl (emitUnit_submits _ (countSample s))

/-- EOS submits no frame outside FRAME; in FRAME the release adds none to the flush. -/
theorem endStream_submits (s : State) :
    Submits [] s (endStream s) ∨ s.fmtCode = .frame ∧ SubmitsAtMostOne s (endStream s) := by
  rcases endStream_cases s with ⟨_, h⟩ | ⟨hf, _, h⟩ | ⟨hf, _, h⟩ <;> rw [h]
  · exact .inl (submits_nil_of_obs_eq rfl)
  · refine .inr ⟨hf, ?_⟩
    have hflush := fbFlush_submits (setRun .draining s)
    simpa only [SubmitsAtMostOne, Submits, setRun_obs, sessionRelease_encodedFrames, sessionRelease_nframes] using hflush
  · exact .inr ⟨hf, fbFlush_submits (setRun .draining s)⟩

/-- A legal command submits no frame, or one at most in a FRAME run that is Streaming. -/
theorem effectOf_submits {i : Instr} {s : State} (hrun : s.runState ≠ .error) (hl : legal s i = true) :
    Submits [] s (effectOf i s) ∨
      (s.runState = .streaming ∧ s.fmtCode = .frame) ∧ SubmitsAtMostOne s (effectOf i s) := by
  cases i with
  | cfg f => exact .inl (submits_nil_of_obs_eq rfl)
  | start => exact .inl (beginRun_submits hrun)
  | sample x =>
    exact (takeSample_submits x s).imp_right fun ⟨hf, h⟩ => ⟨⟨of_decide_eq_true hl, hf⟩, h⟩
  | eos =>
    exact (endStream_submits s).imp_right fun ⟨hf, h⟩ => ⟨⟨of_decide_eq_true hl, hf⟩, h⟩
  | srcerr c => exact .inl (enterError_submits .sourceRead c s)
  | cancel => exact .inl (enterError_submits .cancelled 0 s)

theorem effectOf_framesCounted {i : Instr} {s : State} (hrun : s.runState ≠ .error) (hl : legal s i = true)
    (hs : framesCounted s) : framesCounted (effectOf i s) := by
  rcases effectOf_submits hrun hl with h | ⟨_, h | ⟨_, h⟩⟩ <;> exact h.framesCounted hs

/-- Settles O35: only a legal command of a FRAME run that is Streaming submits a frame, and there the session is open. -/
theorem encodesOnlyWhileOpen : Obligations.EncodesOnlyWhileOpen := by
  intro i s t hs h
  rcases exec_next h with ⟨_, rfl⟩ | ⟨hrun, hl, rfl⟩
  · exact .inl rfl
  · rcases effectOf_submits hrun hl with ⟨hnone, _⟩ | ⟨⟨hstream, hf⟩, ⟨hnone, _⟩ | ⟨f, hone, _⟩⟩
    · exact .inl (by simpa using hnone)
    · exact .inl (by simpa using hnone)
    · obtain ⟨-, hopen, -⟩ := hs.streamingOpen hstream
      exact .inr ⟨hstream, hopen hf, f, hone⟩

/-! #### The log by the state of the session (R161) -/

theorem logMatchesSession_of_none {s : State} (h : s.sess = .none) : logMatchesSession s ↔
    s.obs.encLog = [] ∨ (s.obs.encLog = [.open_] ∧ s.runState = .error ∧ s.err = .encoderInit) := by
  simp [logMatchesSession, h]

theorem logMatchesSession_of_opened {s : State} (h : s.sess = .opened) :
    logMatchesSession s ↔ s.obs.encLog = sessionLog (encodedFrames s.obs.encLog) false := by
  simp [logMatchesSession, h]

theorem logMatchesSession_of_closed {s : State} (h : s.sess = .closed) :
    logMatchesSession s ↔ s.obs.encLog = sessionLog (encodedFrames s.obs.encLog) true := by
  simp [logMatchesSession, h]

/-- Outside Error no open has failed (R152). -/
theorem encLog_eq_nil_of_none {s : State} (hs : logMatchesSession s) (hrun : s.runState ≠ .error)
    (h : s.sess = .none) : s.obs.encLog = [] :=
  ((logMatchesSession_of_none h).1 hs).resolve_right fun ⟨_, he, _⟩ => hrun he

/-- Outside Error the agreement is one of SESS and ENCLOG alone. -/
theorem logMatchesSession_congr {s t : State} (hs : logMatchesSession s) (hrun : s.runState ≠ .error)
    (hsess : t.sess = s.sess) (hlog : t.obs.encLog = s.obs.encLog) : logMatchesSession t := by
  cases h : s.sess with
  | none =>
    rw [logMatchesSession_of_none (hsess.trans h), hlog]
    exact .inl (encLog_eq_nil_of_none hs hrun h)
  | opened => rwa [logMatchesSession_of_opened (hsess.trans h), hlog, ← logMatchesSession_of_opened h]
  | closed => rwa [logMatchesSession_of_closed (hsess.trans h), hlog, ← logMatchesSession_of_closed h]

theorem sessionLog_append_encode (fs : List Frame) (f : Frame) :
    sessionLog fs false ++ [.encode f] = sessionLog (fs ++ [f]) false := by
  simp [sessionLog]

theorem sessionLog_append_close (fs : List Frame) : sessionLog fs false ++ [.close] = sessionLog fs true := by
  simp [sessionLog]

/-! #### What keeps the log in agreement with the session -/

/-- The one Close of a session, and the move to CLOSED (R160). -/
theorem sessionRelease_logMatchesSession {s : State} (hs : logMatchesSession s) :
    logMatchesSession (sessionRelease s) := by
  by_cases h : s.sess = .opened
  · rw [logMatchesSession_of_opened h] at hs
    rw [sessionRelease_opened h, logMatchesSession_of_closed rfl, setSess_obs, logCall_encLog, encodedFrames_append_close,
      ← sessionLog_append_close, ← hs]
  · rwa [sessionRelease_not_opened h]

theorem enterError_logMatchesSession {s : State} (hs : logMatchesSession s) (hrun : s.runState ≠ .error) (k : ErrKind)
    (c : Cause) : logMatchesSession (enterError k c s) :=
  sessionRelease_logMatchesSession (logMatchesSession_congr hs hrun rfl rfl)

theorem emitUnit_logMatchesSession {s : State} (hs : logMatchesSession s) (hrun : s.runState ≠ .error) (u : List Byte) :
    logMatchesSession (emitUnit u s) := by
  have hasked : logMatchesSession (afterSink (countWrite s)) := logMatchesSession_congr hs hrun (by simp) (by simp)
  rcases emitUnit_cases u s with ⟨_, h⟩ | ⟨c, _, h⟩ <;> rw [h]
  · exact logMatchesSession_congr hasked (by simpa) rfl rfl
  · exact enterError_logMatchesSession hasked (by simpa) _ _

/-- An Encode entry extends the log of an open session. -/
theorem logEncode_logMatchesSession {s : State} (hs : logMatchesSession s) (hopen : s.sess = .opened) (f : Frame) :
    logMatchesSession (logCall (.encode f) s) := by
  rw [logMatchesSession_of_opened hopen] at hs
  rw [logMatchesSession_of_opened (by simpa), logCall_encLog, encodedFrames_append_encode, ← sessionLog_append_encode,
    ← hs]

theorem frameCycle_logMatchesSession {s : State} (hs : logMatchesSession s) (hrun : s.runState ≠ .error)
    (hopen : s.sess = .opened) (f : Frame) : logMatchesSession (frameCycle f s) := by
  have hasked : logMatchesSession (afterUnit (countFrame (logCall (.encode f) s))) :=
    logMatchesSession_congr (logEncode_logMatchesSession hs hopen f) hrun (by simp) (by simp)
  rcases frameCycle_cases f s with ⟨_, h⟩ | ⟨_, h⟩ <;> rw [h]
  · exact emitUnit_logMatchesSession hasked (by simpa) _
  · exact enterError_logMatchesSession hasked (by simpa) _ _

theorem fbHandoff_logMatchesSession {s : State} (hs : logMatchesSession s) (hrun : s.runState ≠ .error)
    (hopen : s.sess = .opened) : logMatchesSession (fbHandoff s) :=
  frameCycle_logMatchesSession (s := clearCount s) (logMatchesSession_congr hs hrun rfl rfl) hrun hopen s.fbuf

theorem fbPush_logMatchesSession {s : State} (hs : logMatchesSession s) (hrun : s.runState ≠ .error)
    (hopen : s.sess = .opened) (x : Sample) : logMatchesSession (fbPush x s) := by
  have hstored : logMatchesSession (fbStore x s) := logMatchesSession_congr hs hrun rfl rfl
  rcases fbPush_cases x s with ⟨_, h⟩ | ⟨_, h⟩ <;> rw [h]
  · exact fbHandoff_logMatchesSession hstored hrun hopen
  · exact hstored

theorem fbFlush_logMatchesSession {s : State} (hs : logMatchesSession s) (hrun : s.runState ≠ .error)
    (hopen : s.sess = .opened) : logMatchesSession (fbFlush s) := by
  rcases fbFlush_cases s with ⟨_, h⟩ | ⟨_, h⟩ <;> rw [h]
  · exact hs
  · exact fbHandoff_logMatchesSession (logMatchesSession_congr hs hrun (padBuffer_sess s) (by rw [padBuffer_obs]))
      (by simpa) (by simpa)

/-! #### The effects of the commands -/

/-- START in FRAME writes the first entry of the log, and a failed open leaves it the only one (R151, R152). -/
theorem beginRun_logMatchesSession {s : State} (hs : logMatchesSession s) (hrun : s.runState ≠ .error)
    (hsess : s.sess = .none) : logMatchesSession (beginRun s) := by
  have hempty := encLog_eq_nil_of_none hs hrun hsess
  rcases beginRun_cases hrun with ⟨_, h⟩ | ⟨_, _, h⟩ | ⟨_, c, _, h⟩ <;> rw [h]
  · exact logMatchesSession_congr hs hrun rfl rfl
  · rw [logMatchesSession_of_opened rfl]
    simp [hempty, sessionLog, encodedFrames, EncCall.frame?]
  · rw [logMatchesSession_of_none (by simp [hsess])]
    exact .inr (by simp [hsess, hempty])

theorem takeSample_logMatchesSession {s : State} (hs : logMatchesSession s) (hrun : s.runState ≠ .error)
    (hopen : s.fmtCode = .frame → s.sess = .opened) (x : Sample) : logMatchesSession (takeSample x s) := by
  have hcounted : logMatchesSession (countSample s) := logMatchesSession_congr hs hrun rfl rfl
  by_cases hf : s.fmtCode = .frame
  · rw [takeSample_frame hf]
    exact fbPush_logMatchesSession hcounted hrun (hopen hf) x
  · rw [takeSample_not_frame hf]
    exact emitUnit_logMatchesSession hcounted hrun _

theorem endStream_logMatchesSession {s : State} (hs : logMatchesSession s) (hrun : s.runState ≠ .error)
    (hopen : s.fmtCode = .frame → s.sess = .opened) : logMatchesSession (endStream s) := by
  have hflush (hf : s.fmtCode = .frame) : logMatchesSession (fbFlush (setRun .draining s)) :=
    fbFlush_logMatchesSession (s := setRun .draining s) (logMatchesSession_congr hs hrun rfl rfl) (by simp) (hopen hf)
  rcases endStream_cases s with ⟨_, h⟩ | ⟨hf, hok, h⟩ | ⟨hf, _, h⟩ <;> rw [h]
  · exact logMatchesSession_congr hs hrun rfl rfl
  · exact logMatchesSession_congr (sessionRelease_logMatchesSession (hflush hf)) (by simpa) rfl rfl
  · exact hflush hf

theorem effectOf_logMatchesSession {i : Instr} {s : State} (hb : BoundaryInv s) (hs : logMatchesSession s)
    (hrun : s.runState ≠ .error) (hl : legal s i = true) : logMatchesSession (effectOf i s) := by
  have hopen (hstream : s.runState = .streaming) : s.fmtCode = .frame → s.sess = .opened := by
    obtain ⟨-, hopen, -⟩ := hb.streamingOpen hstream
    exact hopen
  cases i with
  | cfg f => exact logMatchesSession_congr hs hrun rfl rfl
  | start =>
    simp only [legal, Bool.and_eq_true, decide_eq_true_eq] at hl
    obtain ⟨hidle, -⟩ := hl
    obtain ⟨hsess, -⟩ := hb.idleClean hidle
    exact beginRun_logMatchesSession hs hrun hsess
  | sample x => exact takeSample_logMatchesSession hs hrun (hopen (of_decide_eq_true hl)) x
  | eos => exact endStream_logMatchesSession hs hrun (hopen (of_decide_eq_true hl))
  | srcerr c => exact enterError_logMatchesSession hs hrun _ c
  | cancel => exact enterError_logMatchesSession hs hrun _ 0

theorem exec_encoderLogInv {i : Instr} {s t : State} (hb : BoundaryInv s) (hs : EncoderLogInv s)
    (h : exec i s = .next t) : EncoderLogInv t := by
  rcases exec_next h with ⟨_, rfl⟩ | ⟨hrun, hl, rfl⟩
  · exact hs
  · obtain ⟨hlog, hcount, hpast⟩ := hs
    obtain ⟨-, hkept, -⟩ := effectOf_sameHost i hrun
    exact ⟨effectOf_logMatchesSession hb hlog hrun hl, effectOf_framesCounted hrun hl hcount,
      by rwa [pastReleased, hkept]⟩

/-! #### The reset input (70_reset_and_hazards.md R240) and the step -/

/-- A run whose session is not open leaves a record with no session open. -/
theorem released_of_logMatchesSession {s : State} (hs : logMatchesSession s) (h : s.sess ≠ .opened) :
    s.obs.encLog = [] ∨ s.obs.encLog = [.open_] ∨ s.obs.encLog = sessionLog (encodedFrames s.obs.encLog) true := by
  cases hsess : s.sess with
  | none =>
    rcases (logMatchesSession_of_none hsess).1 hs with hempty | ⟨hfailed, -⟩
    · exact .inl hempty
    · exact .inr (.inl hfailed)
  | opened => exact absurd hsess h
  | closed => exact .inr (.inr ((logMatchesSession_of_closed hsess).1 hs))

theorem sessionRelease_sess_ne_opened (s : State) : (sessionRelease s).sess ≠ .opened := by
  rw [sessionRelease_sess]
  split <;> simp_all

theorem resetInput_past (s : State) : (resetInput s).past = s.past ++ [(sessionRelease s).obs] := by
  rw [← sessionRelease_past s]
  rfl

/-- The reset input releases the session before the run's record joins the past ones, and starts an empty record. -/
theorem resetInput_encoderLogInv {s : State} (hs : EncoderLogInv s) : EncoderLogInv (resetInput s) := by
  obtain ⟨hlog, -, hpast⟩ := hs
  refine ⟨.inl rfl, rfl, ?_⟩
  rw [pastReleased, resetInput_past, List.forall_mem_append, List.forall_mem_singleton]
  exact ⟨hpast, released_of_logMatchesSession (sessionRelease_logMatchesSession hlog) (sessionRelease_sess_ne_opened s)⟩

/-- Settles O40, by what a step can do: it waits, resets, consumes a word in Error, or executes a command; taking the event
from the host leaves the records. -/
theorem stepKeepsEncoderLog : Obligations.StepKeepsEncoderLog := by
  intro s t hb hs h
  rcases step_next h with ⟨_, rfl⟩ | ⟨rest, _, rfl⟩ | ⟨w, rest, _, _, rfl⟩ | ⟨w, rest, i, _, _, _, hexec⟩
  · exact hs
  · exact resetInput_encoderLogInv (s := { s with hostIn := rest }) hs
  · exact hs
  · exact exec_encoderLogInv (s := { s with hostIn := rest }) hb hs hexec

end Sys2Proof.Machine

/-! ### Where a command executes (43_pipeline.md R171, R173, R190) -/

namespace Sys2Proof.Machine

theorem exec_in_error {s : State} (h : s.runState = .error) (i : Instr) : exec i s = .next s := by
  rw [exec_eq_guarded, guarded, if_pos h]

theorem exec_of_not_legal {s : State} {i : Instr} (hrun : s.runState ≠ .error) (hl : legal s i = false) :
    exec i s = .fault (.illegalCommand (encode i)) := by
  rw [exec_eq_guarded, guarded, if_neg hrun, if_neg (by simp [hl])]

theorem legal_of_done {s : State} (h : s.runState = .done) (i : Instr) : legal s i = false := by
  cases i <;> simp [legal, h]

theorem legal_setHostIn (s : State) (rest : List HostEvent) (i : Instr) :
    legal { s with hostIn := rest } i = legal s i := by
  cases i <;> rfl

/-- What the step does with a word: it is consumed in Error, executed as the legal command it encodes, or IllegalCommand. -/
theorem step_of_word_cases {s : State} {w : Word} {rest : List HostEvent} (hword : s.hostIn = .word w :: rest) :
    (s.runState = .error ∧ step s = .next { s with hostIn := rest }) ∨
      s.runState ≠ .error ∧
        ((∃ i, w = encode i ∧ legal s i = true ∧ step s = .next (effectOf i { s with hostIn := rest })) ∨
          step s = .fault (.illegalCommand w)) := by
  by_cases he : s.runState = .error
  · exact .inl ⟨he, step_of_word_in_error hword he⟩
  · refine .inr ⟨he, ?_⟩
    cases hdec : decode s.hasCancel w with
    | error e => exact .inr (step_of_invalid_word hword he hdec)
    | ok i =>
      obtain ⟨henc, -⟩ := encode_of_decode hdec
      rw [step_of_command hword he hdec]
      cases hl : legal s i with
      | true => exact .inl ⟨i, henc.symm, hl, exec_of_legal he ((legal_setHostIn s rest i).trans hl)⟩
      | false => exact .inr (henc ▸ exec_of_not_legal he ((legal_setHostIn s rest i).trans hl))

/-- Every next state the step reaches by a word. -/
theorem step_next_of_word {s t : State} {w : Word} {rest : List HostEvent} (hword : s.hostIn = .word w :: rest)
    (h : step s = .next t) :
    (s.runState = .error ∧ t = { s with hostIn := rest }) ∨
      s.runState ≠ .error ∧ ∃ i, w = encode i ∧ legal s i = true ∧ t = effectOf i { s with hostIn := rest } := by
  rcases step_of_word_cases hword with ⟨he, hs⟩ | ⟨hn, ⟨i, hw, hl, hs⟩ | hs⟩ <;> rw [hs] at h <;> cases h
  · exact .inl ⟨he, rfl⟩
  · exact .inr ⟨hn, i, hw, hl, rfl⟩

theorem encode_start_ne_cfg (f : Format) : encode .start ≠ encode (.cfg f) := by
  cases f <;> decide

/-- Settles O9: the checks before execution let the decoded command through. -/
theorem stepRunsDecodedCommand : Obligations.StepRunsDecodedCommand :=
  fun _ _ _ _ => step_of_command

/-- Settles O12: the table written out is `legal`, and the guard answers a next state exactly where it is true. -/
theorem legalityTable : Obligations.LegalityTable := by
  refine ⟨fun s i he => exec_in_error he i, ?_⟩
  intro s i hrun _ allowed
  have hlegal : allowed ↔ legal s i = true := by
    cases i <;> simp [allowed, legal]
  rw [hlegal]
  exact ⟨fun hl => ⟨_, exec_of_legal hrun hl⟩, fun hl => exec_of_not_legal hrun (Bool.eq_false_of_not_eq_true hl)⟩

/-- Settles O14: the guard and the step both ask for Error before anything else. -/
theorem errorConsumesEveryWord : Obligations.ErrorConsumesEveryWord :=
  fun _ he => ⟨fun _ _ hword => step_of_word_in_error hword he, exec_in_error he⟩

/-- Settles O17: only CFG writes FMT, and outside Idle it is not legal. -/
theorem formatFixedForTheRun : Obligations.FormatFixedForTheRun := by
  refine ⟨fun s t w rest hword hor h => ?_, fun s f hidle hrun => exec_of_not_legal hrun (by simp [legal, hidle])⟩
  rcases step_next_of_word hword h with ⟨_, rfl⟩ | ⟨hrun, i, hw, hl, rfl⟩
  · exact ⟨rfl, rfl⟩
  · refine effectOf_sameFormat (s := { s with hostIn := rest }) hrun fun f hcfg => ?_
    subst hcfg
    rcases hor with hidle | hstart
    · exact hidle (of_decide_eq_true hl)
    · exact encode_start_ne_cfg f (hstart.symm.trans hw)

end Sys2Proof.Machine

/-! ### CFG, START, SRCERR and CANCEL (43_pipeline.md R172, R174, R184, R186) -/

namespace Sys2Proof.Machine

/-- No command is legal in Done, so one that is not legal in the state `r` is IllegalCommand in both. -/
theorem exec_in_state_or_done {s : State} {i : Instr} {r : RunState} (hr : r ≠ .error)
    (h : s.runState = r ∨ s.runState = .done) (hl : s.runState = r → legal s i = false) :
    exec i s = .fault (.illegalCommand (encode i)) := by
  rcases h with h | h
  · exact exec_of_not_legal (h ▸ hr) (hl h)
  · exact exec_of_not_legal (by simp [h]) (legal_of_done h i)

theorem exec_cfg_idle {s : State} (h : s.runState = .idle) (f : Format) :
    exec (.cfg f) s = .next { s with fmtCode := f, fmtCfgd := true } :=
  exec_of_legal (by simp [h]) (by simp [legal, h])

/-- Settles O22: CFG in Idle is the write of FMT alone, so a later one overwrites an earlier. -/
theorem cfgSelectsFormat : Obligations.CfgSelectsFormat :=
  ⟨encode_cfg, fun f _ hidle => exec_cfg_idle hidle f,
    fun f g s hidle => exec_cfg_idle (s := { s with fmtCode := f, fmtCfgd := true }) hidle g,
    fun _ _ h => exec_in_state_or_done (by decide) h fun hs => by simp [legal, hs], by decide⟩

/-- The encoder's answer to an open does not depend on the log. -/
theorem afterOpen_logCall (c : EncCall) (s : State) : afterOpen (logCall c s) = logCall c (afterOpen s) := by
  cases h : s.openIn <;> simp [afterOpen, logCall, h]

theorem beginRun_opened {s : State} (hrun : s.runState ≠ .error) (hf : s.fmtCode = .frame) (hok : openAnswer s = .ok) :
    beginRun s = setRun .streaming (setSess .opened (logCall .open_ (afterOpen s))) := by
  rcases beginRun_cases hrun with ⟨hne, _⟩ | ⟨_, _, h⟩ | ⟨_, c, hfail, _⟩
  · exact absurd hf hne
  · rw [h, afterOpen_logCall]
  · cases hok.symm.trans hfail

theorem beginRun_refused {s : State} (hrun : s.runState ≠ .error) (hf : s.fmtCode = .frame) {c : Cause}
    (hfail : openAnswer s = .fail c) : beginRun s = enterError .encoderInit c (logCall .open_ (afterOpen s)) := by
  rcases beginRun_cases hrun with ⟨hne, _⟩ | ⟨_, hok, _⟩ | ⟨_, c', hfail', h⟩
  · exact absurd hf hne
  · cases hok.symm.trans hfail
  · cases hfail'.symm.trans hfail
    rw [h, afterOpen_logCall]

/-- Settles O23, by the format and the encoder's answer to the open; with SESS NONE error entry makes no Close. -/
theorem startBeginsRun : Obligations.StartBeginsRun := by
  refine ⟨by decide, fun s h => exec_in_state_or_done (by decide) h fun hs => by simp [legal, hs],
    fun s hidle hclean => ?_⟩
  obtain ⟨hsess, -, -⟩ := hclean hidle
  have hrun : s.runState ≠ .error := by simp [hidle]
  have hexec (hcfgd : s.fmtCfgd = true) : exec .start s = .next (beginRun s) :=
    exec_of_legal hrun (by simp [legal, hidle, hcfgd])
  refine ⟨fun hcfgd => exec_of_not_legal hrun (by simp [legal, hcfgd]), fun hcfgd hf => ?_, fun hcfgd hf hok => ?_,
    fun c hcfgd hf hfail => ?_⟩ <;> rw [hexec hcfgd]
  · rw [beginRun_not_frame hf, setRun]
  · rw [beginRun_opened hrun hf hok]
    simp [setRun, setSess, logCall]
  · rw [beginRun_refused hrun hf hfail, enterError_not_opened (by simp [hsess])]
    simp [logCall]

/-- Settles O24: SRCERR is error entry with its operand. -/
theorem srcerrEntersError : Obligations.SrcerrEntersError := by
  have hexec {s : State} (c : Cause) (h : s.runState = .streaming) :
      exec (.srcerr c) s = .next (enterError .sourceRead c s) :=
    exec_of_legal (by simp [h]) (by simp [legal, h])
  refine ⟨encode_srcerr, fun c s hrun hsess => ?_, fun c s hrun hsess => ?_,
    fun c s h => exec_in_state_or_done (by decide) h fun hidle => by simp [legal, hidle]⟩ <;> rw [hexec c hrun]
  · rw [enterError_opened hsess, logCall]
  · rw [enterError_not_opened hsess]

/-- Settles O25: CANCEL is error entry with cause 0 where it is legal, in Streaming on a block that has it. -/
theorem cancelEntersError : Obligations.CancelEntersError := by
  have hexec {s : State} (hc : s.hasCancel = true) (h : s.runState = .streaming) :
      exec .cancel s = .next (enterError .cancelled 0 s) :=
    exec_of_legal (by simp [h]) (by simp [legal, h, hc])
  refine ⟨fun s hc hrun hsess => ?_, fun s hc hrun hsess => ?_, fun s h => ?_⟩
  · rw [hexec hc hrun, enterError_opened hsess, logCall]
  · rw [hexec hc hrun, enterError_not_opened hsess]
  · change exec .cancel s = .fault (.illegalCommand (encode .cancel))
    rcases h with h | h | ⟨h, hc⟩
    · exact exec_of_not_legal (by simp [h]) (by simp [legal, h])
    · exact exec_of_not_legal (by simp [h]) (legal_of_done h .cancel)
    · exact exec_of_not_legal (by simp [h]) (by simp [legal, hc])

end Sys2Proof.Machine

/-! ### SAMPLE outside FRAME (43_pipeline.md R176 to R178) -/

namespace Sys2Proof.Machine

/-- The block once a sample was written as the unit `u` and the sink accepted it. -/
def sampleAccepted (u : List Byte) (s : State) : State :=
  { afterSink s with
    obs := { s.obs with out := s.obs.out ++ u, nsamp := s.obs.nsamp + 1, nwrites := s.obs.nwrites + 1 } }

/-- The block once the sink refused the write of a sample with the cause `c`, no session being open. -/
def sampleRefused (c : Cause) (s : State) : State :=
  { afterSink s with
    err := .sinkWrite, errinfo := c, runState := .error,
    obs := { s.obs with nsamp := s.obs.nsamp + 1, nwrites := s.obs.nwrites + 1 } }

theorem afterSink_countWrite (s : State) : afterSink (countWrite s) = countWrite (afterSink s) := by
  cases h : s.sinkIn <;> simp [afterSink, countWrite, h]

theorem emitUnit_accepted {u : List Byte} {s : State} (hw : sinkAnswer s u = .ok) :
    emitUnit u s = appendOut u (countWrite (afterSink s)) := by
  rcases emitUnit_cases u s with ⟨_, h⟩ | ⟨c, hc, _⟩
  · rw [h, afterSink_countWrite]
  · cases hw.symm.trans hc

theorem emitUnit_refused {u : List Byte} {s : State} {c : Cause} (hw : sinkAnswer s u = .fail c) :
    emitUnit u s = enterError .sinkWrite c (countWrite (afterSink s)) := by
  rcases emitUnit_cases u s with ⟨hok, _⟩ | ⟨c', hc, h⟩
  · cases hok.symm.trans hw
  · cases hc.symm.trans hw
    rw [h, afterSink_countWrite]

theorem takeSample_accepted {s : State} {x : Sample} (hf : s.fmtCode ≠ .frame)
    (hw : sinkAnswer s (sampleUnit s.fmtCode x) = .ok) :
    takeSample x s = sampleAccepted (sampleUnit s.fmtCode x) s := by
  rw [takeSample_not_frame hf, emitUnit_accepted (s := countSample s) hw, afterSink_countSample]
  simp [appendOut, countWrite, countSample, sampleAccepted]

theorem takeSample_refused {s : State} {x : Sample} {c : Cause} (hf : s.fmtCode ≠ .frame) (hs : s.sess ≠ .opened)
    (hw : sinkAnswer s (sampleUnit s.fmtCode x) = .fail c) : takeSample x s = sampleRefused c s := by
  rw [takeSample_not_frame hf, emitUnit_refused (s := countSample s) hw, afterSink_countSample,
    enterError_not_opened (by simpa using hs)]
  simp [countWrite, countSample, sampleRefused]

/-- SAMPLE in Streaming outside FRAME, by the sink's answer to the write of the sample's unit. -/
theorem exec_sample_not_frame {s : State} (hrun : s.runState = .streaming) (hopen : streamingOpen s)
    (hf : s.fmtCode ≠ .frame) (x : Sample) :
    (sinkAnswer s (sampleUnit s.fmtCode x) = .ok →
        exec (.sample x) s = .next (sampleAccepted (sampleUnit s.fmtCode x) s)) ∧
      ∀ c, sinkAnswer s (sampleUnit s.fmtCode x) = .fail c → exec (.sample x) s = .next (sampleRefused c s) := by
  obtain ⟨-, -, hnone, -⟩ := hopen hrun
  rw [exec_sample_streaming hrun]
  exact ⟨fun hw => by rw [takeSample_accepted hf hw],
    fun c hw => by rw [takeSample_refused hf (by simp [hnone hf]) hw]⟩

/-- Settles O26: the byte is the unit of the sample; the corner cases are evaluated. -/
theorem compandedSampleWritesOneByte : Obligations.CompandedSampleWritesOneByte := by
  refine ⟨fun s x b hrun hopen hb => ?_, by decide⟩
  have hf : s.fmtCode ≠ .frame := by
    rcases hb with ⟨hcode, -⟩ | ⟨hcode, -⟩ <;> simp [hcode]
  have hunit : sampleUnit s.fmtCode x = [b] := by
    rcases hb with ⟨hcode, rfl⟩ | ⟨hcode, rfl⟩ <;> rw [hcode] <;> rfl
  rw [← hunit]
  exact exec_sample_not_frame hrun hopen hf x

/-- Settles O27: the two bytes are the unit of the sample; the corner cases are evaluated. -/
theorem pcmSampleWritesTwoBytes : Obligations.PcmSampleWritesTwoBytes := by
  refine ⟨?_, by decide⟩
  intro s x hrun hopen hf u
  have hunit : sampleUnit s.fmtCode x = u := by rw [hf]; rfl
  rw [← hunit]
  exact exec_sample_not_frame hrun hopen (by simp [hf]) x

end Sys2Proof.Machine

/-! ### EOS (43_pipeline.md R182, R183) -/

namespace Sys2Proof.Machine

theorem exec_eos_streaming {s : State} (hrun : s.runState = .streaming) : exec .eos s = .next (endStream s) :=
  exec_of_legal (by simp [hrun]) (by simp [legal, hrun])

/-- Settles O30: outside FRAME EOS only moves to Done. -/
theorem eosWithoutFrames : Obligations.EosWithoutFrames := by
  intro s hrun hf
  rw [exec_eos_streaming hrun, endStream_not_frame hf, setRun]

theorem afterUnit_setRun (r : RunState) (s : State) : afterUnit (setRun r s) = setRun r (afterUnit s) := by
  cases h : s.encIn <;> simp [afterUnit, setRun, h]

theorem afterSink_setRun (r : RunState) (s : State) : afterSink (setRun r s) = setRun r (afterSink s) := by
  cases h : s.sinkIn <;> simp [afterSink, setRun, h]

/-- The flush of a partial frame is the cycle of the frame padded with zeros. -/
theorem fbFlush_partial {s : State} (h : s.fcnt ≠ 0) :
    fbFlush s = frameCycle (padFrom s.fcnt.toNat s.fbuf) (withFrame (padFrom s.fcnt.toNat s.fbuf) s) := by
  rcases fbFlush_cases s with ⟨h0, _⟩ | ⟨_, hflush⟩
  · exact absurd h0 h
  · rw [hflush, fbHandoff, padBuffer_fbuf, padBuffer, clearCount, withFrame]

theorem padFrom_unique {k : Nat} {f g : Frame} (h : ∀ (i : Nat) (_ : i < 80), g[i] = if i < k then f[i] else 0) :
    g = padFrom k f := by
  ext i hi : 1
  rw [h i hi, padFrom_get k f i hi]

/-- Settles O31: an empty buffer is only released; a padded frame has the three outcomes of the frame's cycle. -/
theorem eosFlushesFrame : Obligations.EosFlushesFrame := by
  intro s hrun hf hsess
  rw [exec_eos_streaming hrun, endStream_frame hf]
  constructor
  · intro h0
    rcases fbFlush_cases (setRun .draining s) with ⟨_, hflush⟩ | ⟨hne, _⟩
    · rw [hflush, afterDraining_of_no_error (by simp), sessionRelease_opened (by simpa using hsess)]
      simp [setRun, setSess, logCall]
    · exact absurd h0 hne
  · intro h0 f hpad u a
    have hflush : fbFlush (setRun .draining s) = frameCycle f (withFrame f (setRun .draining s)) := by
      rw [padFrom_unique hpad]
      exact fbFlush_partial (s := setRun .draining s) h0
    have ha : afterUnit (withFrame f (setRun .draining s)) = withFrame f (setRun .draining a) := by
      rw [afterUnit_withFrame, afterUnit_setRun]
    have hk : afterSink (withFrame f (setRun .draining a)) = withFrame f (setRun .draining (afterSink a)) := by
      rw [afterSink_withFrame, afterSink_setRun]
    have hunit : unitAnswer (withFrame f (setRun .draining s)) f = u := rfl
    have hanswer : sinkAnswer (afterUnit (withFrame f (setRun .draining s))) u = sinkAnswer a u := by rw [ha]; rfl
    rw [hflush]
    refine ⟨fun hlen => ?_, fun hmin hmax hw => ?_, fun c hmin hmax hw => ?_⟩
    · rw [frameCycle_bad_length (s := withFrame f (setRun .draining s)) hlen hsess, afterDraining_of_error rfl, ha]
      rfl
    · rw [frameCycle_written (s := withFrame f (setRun .draining s)) hmin hmax (hanswer.trans hw), hunit, ha, hk,
        afterDraining_of_no_error (by simp [withFrame]), sessionRelease_opened (by simpa [withFrame, a] using hsess)]
      simp [setRun, setSess, logCall, withFrame]
    · rw [frameCycle_refused (s := withFrame f (setRun .draining s)) hmin hmax (hanswer.trans hw) hsess,
        afterDraining_of_error rfl, ha, hk]
      rfl

end Sys2Proof.Machine

/-! ### The moves of the run state (43_pipeline.md R170) -/

namespace Sys2Proof.Machine

/-- The sink's answer after an encoder call is decided by what the agents list and by the number of draws. -/
theorem sinkAnswer_afterUnit_congr {s t : State} (he : t.encIn = s.encIn) (hk : t.sinkIn = s.sinkIn)
    (hd : t.drawn = s.drawn) (u : List Byte) : sinkAnswer (afterUnit t) u = sinkAnswer (afterUnit s) u := by
  cases h : s.encIn <;> simp [afterUnit, sinkAnswer, he, hk, hd, h]

/-- A frame's cycle leaves STATE where its write is answered ok, and enters Error by the answer or by the unit's length. -/
theorem frameCycle_moves (f : Frame) (s : State) :
    ((1 ≤ (unitAnswer s f).length ∧ (unitAnswer s f).length ≤ 10) ∧
        sinkAnswer (afterUnit s) (unitAnswer s f) = .ok ∧ (frameCycle f s).runState = s.runState) ∨
      (∃ c, (1 ≤ (unitAnswer s f).length ∧ (unitAnswer s f).length ≤ 10) ∧
        sinkAnswer (afterUnit s) (unitAnswer s f) = .fail c ∧ (frameCycle f s).runState = .error ∧
        (frameCycle f s).err = .sinkWrite) ∨
      (((unitAnswer s f).length = 0 ∨ 10 < (unitAnswer s f).length) ∧ (frameCycle f s).runState = .error ∧
        (frameCycle f s).err = .encoderInvariant) := by
  have hanswer : sinkAnswer (afterUnit (countFrame (logCall (.encode f) s))) (unitAnswer s f) =
      sinkAnswer (afterUnit s) (unitAnswer s f) :=
    sinkAnswer_afterUnit_congr (s := s) (t := countFrame (logCall (.encode f) s)) rfl rfl rfl _
  rcases frameCycle_cases f s with ⟨hlen, h⟩ | ⟨hlen, h⟩
  · have hlegal := (unitLengthOk_iff _).1 hlen
    rcases emitUnit_cases (unitAnswer s f) (afterUnit (countFrame (logCall (.encode f) s))) with
      ⟨hok, hw⟩ | ⟨c, hfail, hw⟩ <;> rw [h, hw]
    · exact .inl ⟨hlegal, hanswer.symm.trans hok, by simp⟩
    · exact .inr (.inl ⟨c, hlegal, hanswer.symm.trans hfail, by simp, by simp⟩)
  · have hbad : ¬ (1 ≤ (unitAnswer s f).length ∧ (unitAnswer s f).length ≤ 10) := by
      simp [← unitLengthOk_iff, hlen]
    exact .inr (.inr ⟨by omega, by simp [h], by simp [h]⟩)

theorem fbPush_stores_of_ne {s : State} (h : s.fcnt ≠ 79) (x : Sample) : fbPush x s = fbStore x s := by
  rcases fbPush_cases x s with ⟨hfull, _⟩ | ⟨_, hpush⟩
  · exact absurd (by bv_omega) h
  · exact hpush

/-- SAMPLE leaves STATE, or enters Error by the answer of its write or by the length of its frame's unit. -/
theorem takeSample_moves (x : Sample) (s : State) :
    ((sampleBuffers s ∨ sampleWriteAnswered s x .ok) ∧ (takeSample x s).runState = s.runState) ∨
      (∃ c, sampleWriteAnswered s x (.fail c) ∧ (takeSample x s).runState = .error ∧
        (takeSample x s).err = .sinkWrite) ∨
      (sampleUnitBad s x ∧ (takeSample x s).runState = .error ∧ (takeSample x s).err = .encoderInvariant) := by
  by_cases hf : s.fmtCode = .frame
  · rw [takeSample_frame hf]
    by_cases hcnt : s.fcnt = 79
    · have hanswer (u : List Byte) :
          sinkAnswer (afterUnit (withFrame (completedFrame s x) (countSample s))) u = sinkAnswer (afterUnit s) u :=
        sinkAnswer_afterUnit_congr (s := s) (t := withFrame _ (countSample s)) rfl rfl rfl u
      rw [fbPush_completes (s := countSample s) hcnt, completedFrame_countSample]
      rcases frameCycle_moves (completedFrame s x) (withFrame (completedFrame s x) (countSample s)) with
        ⟨⟨hmin, hmax⟩, hok, hrun⟩ | ⟨c, ⟨hmin, hmax⟩, hfail, hrun, herr⟩ | ⟨hlen, hrun, herr⟩
      · exact .inl ⟨.inr (.inr ⟨hf, hcnt, hmin, hmax, (hanswer _).symm.trans hok⟩), hrun⟩
      · exact .inr (.inl ⟨c, .inr ⟨hf, hcnt, hmin, hmax, (hanswer _).symm.trans hfail⟩, hrun, herr⟩)
      · exact .inr (.inr ⟨⟨hf, hcnt, hlen⟩, hrun, herr⟩)
    · exact .inl ⟨.inl ⟨hf, hcnt⟩, by rw [fbPush_stores_of_ne (s := countSample s) hcnt]; rfl⟩
  · rw [takeSample_not_frame hf]
    rcases emitUnit_cases (sampleUnit s.fmtCode x) (countSample s) with ⟨hok, h⟩ | ⟨c, hfail, h⟩ <;> rw [h]
    · exact .inl ⟨.inr (.inl ⟨hf, hok⟩), by simp⟩
    · exact .inr (.inl ⟨c, .inl ⟨hf, hfail⟩, by simp, by simp⟩)

/-- What the host presents next has no part in the answer to a write. -/
theorem sampleWriteAnswered_setHostIn {s : State} {rest : List HostEvent} {x : Sample} {a : Answer} :
    sampleWriteAnswered { s with hostIn := rest } x a ↔ sampleWriteAnswered s x a := by
  have hanswer := sinkAnswer_afterUnit_congr (s := s) (t := { s with hostIn := rest }) rfl rfl rfl
    (unitAnswer s (completedFrame s x))
  rw [sampleWriteAnswered, sampleWriteAnswered, ← hanswer]
  rfl

/-- EOS ends Done, or in FRAME in Error by the cycle of the padded frame. -/
theorem endStream_moves (s : State) :
    (endStream s).runState = .done ∨
      s.fmtCode = .frame ∧ (endStream s).runState = .error ∧
        ((endStream s).err = .sinkWrite ∨ (endStream s).err = .encoderInvariant) := by
  rcases endStream_cases s with ⟨_, h⟩ | ⟨_, _, h⟩ | ⟨hf, he, h⟩ <;> rw [h]
  · exact .inl rfl
  · exact .inl rfl
  · refine .inr ⟨hf, he, ?_⟩
    by_cases h0 : s.fcnt = 0
    · rw [fbFlush, if_pos (by simpa using h0)] at he
      cases he
    · rw [fbFlush_partial (s := setRun .draining s) h0] at he ⊢
      rcases frameCycle_registers _ (withFrame _ (setRun .draining s)) with ⟨hrun, -⟩ | ⟨-, -, herr, -⟩
      · cases hrun.symm.trans he
      · exact herr

/-- Settles O16: Error consumes the word, and elsewhere the moves are those of the one legal command the word encodes. -/
theorem runStateMovesAsListed : Obligations.RunStateMovesAsListed := by
  refine ⟨fun s rest hreset => ⟨_, step_of_reset hreset, rfl⟩, fun s w rest hword => ?_,
    fun s t w rest hword h => ?_⟩
  · rcases step_of_word_cases hword with ⟨he, h⟩ | ⟨_, ⟨i, _, hl, h⟩ | h⟩
    · exact ⟨.inl ⟨_, h⟩, fun hdone => absurd (he.symm.trans hdone) (by decide)⟩
    · exact ⟨.inl ⟨_, h⟩, fun hdone => absurd (hl.symm.trans (legal_of_done hdone i)) (by decide)⟩
    · exact ⟨.inr h, fun _ => h⟩
  · rcases step_next_of_word hword h with ⟨he, rfl⟩ | ⟨hrun, i, rfl, hl, rfl⟩
    · iterate 11 right
      exact ⟨he, he⟩
    · -- Each command skips to its own rows of the table.
      cases i <;> simp only [legal, Bool.and_eq_true, decide_eq_true_eq] at hl
      case cfg f => exact .inl ⟨hl, ⟨f, rfl⟩, hl⟩
      case start =>
        obtain ⟨hidle, -⟩ := hl
        rcases beginRun_cases (s := { s with hostIn := rest }) hrun with
          ⟨hf, ht⟩ | ⟨hf, hok, ht⟩ | ⟨hf, c, hfail, ht⟩ <;> rw [effectOf, ht]
        · exact .inr (.inl ⟨hidle, rfl, hf, rfl⟩)
        · exact .inr (.inr (.inl ⟨hidle, rfl, hf, hok, rfl⟩))
        · exact .inr (.inr (.inr (.inl
            ⟨hidle, rfl, hf, ⟨c, hfail⟩, enterError_runState _ _ _, enterError_err _ _ _⟩)))
      case sample x =>
        iterate 4 right
        rcases takeSample_moves x { s with hostIn := rest } with
          ⟨hcause, ht⟩ | ⟨c, hcause, ht, herr⟩ | ⟨hcause, ht, herr⟩
        · exact .inl ⟨hl, ⟨x, rfl, hcause.imp_right sampleWriteAnswered_setHostIn.1⟩, ht.trans hl⟩
        · exact .inr (.inl ⟨hl, ⟨x, c, rfl, sampleWriteAnswered_setHostIn.1 hcause⟩, ht, herr⟩)
        · exact .inr (.inr (.inl ⟨hl, ⟨x, rfl, hcause⟩, ht, herr⟩))
      case eos =>
        iterate 7 right
        have hmoves := endStream_moves { s with hostIn := rest }
        by_cases hf : s.fmtCode = .frame
        · exact .inr (.inl ⟨hl, rfl, hf, hmoves.imp_right And.right⟩)
        · exact .inl ⟨hl, rfl, hf, hmoves.resolve_right fun ⟨hframe, _⟩ => hf hframe⟩
      case srcerr c =>
        iterate 9 right
        exact .inl ⟨hl, ⟨c, rfl⟩, enterError_runState _ _ _, enterError_err _ _ _⟩
      case cancel =>
        obtain ⟨hstream, hcancel⟩ := hl
        iterate 10 right
        exact .inl ⟨hstream, rfl, hcancel, enterError_runState _ _ _, enterError_err _ _ _⟩

end Sys2Proof.Machine

/-! ### Runs outside FRAME (43_pipeline.md R191 to R194) -/

namespace Sys2Proof.Machine

/-! #### Answers listed in order -/

theorem sinkAnswer_of_listed {a : Answer} {l : List Answer} {s : State} (h : a :: l <+: s.sinkIn) (u : List Byte) :
    sinkAnswer s u = a ∧ l <+: (afterSink s).sinkIn := by
  obtain ⟨rest, h⟩ := h
  exact ⟨sinkAnswer_listed h.symm u, by simp [← h]⟩

theorem unitAnswer_of_listed {u : List Byte} {l : List (List Byte)} {s : State} (h : u :: l <+: s.encIn) (f : Frame) :
    unitAnswer s f = u ∧ l <+: (afterUnit s).encIn := by
  obtain ⟨rest, h⟩ := h
  exact ⟨unitAnswer_listed h.symm f, by simp [← h]⟩

/-! #### The samples -/

/-- A run that is Streaming in the format `f`, with no session open. -/
structure InSampleRun (f : Format) (s : State) : Prop where
  run : s.runState = .streaming
  code : s.fmtCode = f
  sess : s.sess ≠ .opened

/-- `t` is the run of `s` after every one of the samples `xs` was written and accepted. -/
structure SamplesWritten (f : Format) (xs : List Sample) (s t : State) : Prop where
  inRun : InSampleRun f t
  sinkIn : t.sinkIn = s.sinkIn.drop xs.length
  obs : t.obs = { s.obs with
    out := s.obs.out ++ xs.flatMap (sampleUnit f), nsamp := s.obs.nsamp + xs.length,
    nwrites := s.obs.nwrites + xs.length }

theorem sampleAccepted_inSampleRun {f : Format} {s : State} (hs : InSampleRun f s) (u : List Byte) :
    InSampleRun f (sampleAccepted u s) := by
  obtain ⟨hrun, hcode, hsess⟩ := hs
  exact ⟨by simpa [sampleAccepted], by simpa [sampleAccepted], by simpa [sampleAccepted]⟩

theorem samplesWritten_nil {f : Format} {s : State} (hs : InSampleRun f s) : SamplesWritten f [] s s :=
  ⟨hs, rfl, by simp⟩

theorem SamplesWritten.cons {f : Format} {x : Sample} {xs : List Sample} {s t : State}
    (h : SamplesWritten f xs (sampleAccepted (sampleUnit f x) s) t) : SamplesWritten f (x :: xs) s t := by
  obtain ⟨hrun, hsink, hobs⟩ := h
  refine ⟨hrun, by simp [hsink, sampleAccepted], ?_⟩
  simp [hobs, sampleAccepted, Nat.add_assoc, Nat.add_comm 1]

/-- The samples of a run are all written, or the run is in Error, which it is not where every write is listed as answered ok.
What is presented after the samples is then run. -/
theorem runCommands_samples {f : Format} (hf : f ≠ .frame) (xs : List Sample) (is : List Instr) {s : State}
    (hs : InSampleRun f s) : ∃ r, runCommands (xs.map .sample ++ is) s = runCommands is r ∧
      (SamplesWritten f xs s r ∨ r.runState = .error ∧ ¬ List.replicate xs.length .ok <+: s.sinkIn) := by
  induction xs generalizing s with
  | nil => exact ⟨s, rfl, .inl (samplesWritten_nil hs)⟩
  | cons x xs ih =>
    have hs' : InSampleRun f (presenting (xs.map .sample ++ is) s) := ⟨hs.run, hs.code, hs.sess⟩
    rw [List.map_cons, List.cons_append, runCommands_cons _ (by simp [hs.run]) rfl (by simp [legal, hs.run]), effectOf]
    generalize hp : presenting (xs.map .sample ++ is) s = p at hs'
    have hsink : p.sinkIn = s.sinkIn := by rw [← hp]; rfl
    have hobs : p.obs = s.obs := by rw [← hp]; rfl
    have hcode : p.fmtCode ≠ .frame := hs'.code ▸ hf
    cases hw : sinkAnswer p (sampleUnit p.fmtCode x) with
    | ok =>
      rw [takeSample_accepted hcode hw, hs'.code]
      obtain ⟨r, hrun, hr⟩ := ih (sampleAccepted_inSampleRun hs' (sampleUnit f x))
      refine ⟨r, hrun, hr.imp (fun h => ?_) fun ⟨he, hlist⟩ => ⟨he, fun hoks => hlist ?_⟩⟩
      · obtain ⟨hin, hdrop, hrec⟩ := h.cons
        exact ⟨hin, hsink ▸ hdrop, hobs ▸ hrec⟩
      · rw [← hsink] at hoks
        exact (sinkAnswer_of_listed hoks []).2
    | fail c =>
      rw [takeSample_refused hcode hs'.sess hw]
      refine ⟨sampleRefused c p, ?_, .inr ⟨rfl, fun hoks => ?_⟩⟩
      · rw [runCommands_of_error _ rfl, runCommands_of_error _ rfl]
      · rw [← hsink] at hoks
        exact absurd ((sinkAnswer_of_listed hoks _).1.symm.trans hw) (by simp)

/-! #### From reset on -/

/-- CFG and START outside FRAME leave a run in that format with everything as after reset. -/
theorem runCommands_start_not_frame {f : Format} (hf : f ≠ .frame) (is : List Instr) {s : State} (hs : Fresh s) :
    ∃ r, runCommands (.cfg f :: .start :: is) s = runCommands is r ∧ InSampleRun f r ∧ r.sinkIn = s.sinkIn ∧
      r.obs = RunRecord.empty := by
  obtain ⟨-, hidle, -, -, -, hsess, hobs, -⟩ := hs
  refine ⟨setRun .streaming (selectFormat f (presenting is s)), ?_, ⟨rfl, rfl, ?_⟩, rfl, hobs⟩
  · rw [runCommands_cfg_start f is hidle, beginRun_not_frame hf]
  · simp [presenting, hsess]

theorem runCommands_eos_not_frame {f : Format} (hf : f ≠ .frame) {s : State} (hs : InSampleRun f s) :
    runCommands [.eos] s = .next (setRun .done (presenting [] s)) := by
  rw [runCommands_cons [] (by simp [hs.run]) rfl (by simp [legal, hs.run]), effectOf,
    endStream_not_frame (s := presenting [] s) (by rw [← hs.code] at hf; exact hf)]
  rfl

/-- A run outside FRAME from reset: it ends Done with every sample written, or in Error, which it does not where every write
is listed as answered ok. -/
theorem runCommands_sample_stream {f : Format} (hf : f ≠ .frame) (xs : List Sample) {s : State} (hs : Fresh s) :
    ∃ t, runCommands (streamCommands f xs) s = .next t ∧
      ((t.runState = .done ∧ t.obs = { RunRecord.empty with
          out := xs.flatMap (sampleUnit f), nsamp := xs.length, nwrites := xs.length }) ∨
        t.runState = .error ∧ ¬ List.replicate xs.length .ok <+: s.sinkIn) := by
  obtain ⟨r, hstart, hr, hsink, hobs⟩ := runCommands_start_not_frame hf (xs.map .sample ++ [.eos]) hs
  rw [streamCommands, hstart]
  obtain ⟨q, hsamples, hq | ⟨he, hlist⟩⟩ := runCommands_samples hf xs [.eos] hr <;> rw [hsamples]
  · refine ⟨_, runCommands_eos_not_frame hf hq.inRun, .inl ⟨rfl, hq.obs.trans ?_⟩⟩
    simp [hobs, RunRecord.empty]
  · exact ⟨_, runCommands_of_error [.eos] he, .inr ⟨he, hsink ▸ hlist⟩⟩

theorem flatMap_sampleUnit_length {f : Format} (hf : f ≠ .frame) (xs : List Sample) :
    (xs.flatMap (sampleUnit f)).length = if f = .pcm16le then 2 * xs.length else xs.length := by
  cases f with
  | mulaw => simp [sampleUnit]
  | alaw => simp [sampleUnit]
  | pcm16le => simp [sampleUnit, pcmUnit, Nat.mul_comm]
  | frame => exact absurd rfl hf

/-- Settles O49: a run that is not in Error has written every sample, and with every write answered ok it is not in Error. -/
theorem sampleStreamOutput : Obligations.SampleStreamOutput := by
  intro s f xs hs hf
  obtain ⟨t, hrun, ⟨hdone, hobs⟩ | ⟨he, hlist⟩⟩ := runCommands_sample_stream hf xs hs
  · refine ⟨t, hrun, fun _ => ?_, fun _ => hdone⟩
    rw [hobs]
    exact ⟨rfl, flatMap_sampleUnit_length hf xs, rfl, rfl, rfl⟩
  · refine ⟨t, hrun, fun hdone => absurd (he.symm.trans hdone) (by decide), fun hoks => absurd ?_ hlist⟩
    exact hoks ▸ List.take_prefix _ _

theorem pcmSample_lo_hi (x : Sample) : pcmSample (loByte x) (hiByte x) = x := by
  ext i hi
  by_cases h : i < 8
  · simp [pcmSample, loByte, hiByte, h, BitVec.getLsbD_eq_getElem hi]
  · have h8 : i - 8 < 8 := by omega
    simp [pcmSample, loByte, hiByte, h, h8, show 8 + (i - 8) = i by omega, BitVec.getLsbD_eq_getElem hi]

/-- Bytes 2k and 2k+1 of the PCM16LE units of a stream are those of sample k. -/
theorem flatMap_pcmUnit_get (xs : List Sample) (k : Nat) (hk : k < xs.length) :
    (xs.flatMap pcmUnit)[2 * k]? = some (loByte xs[k]) ∧ (xs.flatMap pcmUnit)[2 * k + 1]? = some (hiByte xs[k]) := by
  induction xs generalizing k with
  | nil => exact absurd hk (Nat.not_lt_zero k)
  | cons x xs ih =>
    cases k with
    | zero => exact ⟨rfl, rfl⟩
    | succ k => exact ih k (Nat.lt_of_succ_lt_succ hk)

/-- Settles O52: OUT is the units of the samples, and the two bytes of a unit make up its sample. -/
theorem pcmRoundTrip : Obligations.PcmRoundTrip := by
  intro s t xs hs hrun hdone k hk
  obtain ⟨t', hrun', ⟨_, hobs⟩ | ⟨he, _⟩⟩ := runCommands_sample_stream (f := .pcm16le) (by decide) xs hs <;>
    cases hrun.symm.trans hrun'
  · obtain ⟨hlo, hhi⟩ := flatMap_pcmUnit_get xs k hk
    rw [hobs]
    exact ⟨loByte xs[k], hiByte xs[k], hlo, hhi, pcmSample_lo_hi xs[k]⟩
  · exact absurd (he.symm.trans hdone) (by decide)

/-- A run outside FRAME that has its writes accepted up to the sample `x`, whose write is refused: the units before are
written, and the run is in Error with the sink's cause. -/
theorem runCommands_sample_stream_refused {f : Format} (hf : f ≠ .frame) (xs ys : List Sample) (x : Sample) {c : Cause}
    {s : State} (hs : Fresh s) (hlist : List.replicate xs.length .ok ++ [.fail c] <+: s.sinkIn) :
    ∃ t, runCommands (streamCommands f (xs ++ x :: ys)) s = .next t ∧ t.runState = .error ∧ t.err = .sinkWrite ∧
      t.errinfo = c ∧ t.obs = { RunRecord.empty with
        out := xs.flatMap (sampleUnit f), nsamp := xs.length + 1, nwrites := xs.length + 1 } := by
  obtain ⟨rest, hlist⟩ := hlist
  rw [List.append_assoc] at hlist
  obtain ⟨r, hstart, hr, hsink, hobs⟩ := runCommands_start_not_frame hf ((xs ++ x :: ys).map .sample ++ [.eos]) hs
  rw [streamCommands, hstart, List.map_append, List.append_assoc]
  obtain ⟨q, hsamples, hq | ⟨_, hnot⟩⟩ := runCommands_samples hf xs ((x :: ys).map .sample ++ [.eos]) hr
  · have hfail : q.sinkIn = .fail c :: rest := by
      rw [hq.sinkIn, hsink, ← hlist]
      simp
    obtain ⟨hrun, hcode, hsess⟩ := hq.inRun
    rw [hsamples, List.map_cons, List.cons_append, runCommands_cons _ (by simp [hrun]) rfl (by simp [legal, hrun]),
      effectOf, takeSample_refused (s := presenting _ q) (by simpa [presenting, hcode] using hf) hsess
        (sinkAnswer_listed hfail _)]
    refine ⟨_, runCommands_of_error _ rfl, rfl, rfl, rfl, ?_⟩
    simp [sampleRefused, presenting, hq.obs, hobs, RunRecord.empty]
  · exact absurd ⟨.fail c :: rest, by rw [hsink, ← hlist]; rfl⟩ hnot

end Sys2Proof.Machine

/-! ### FRAME runs with the agents' answers listed (42_encoder_adapter.md R157 to R161, 43_pipeline.md R191, R193) -/

namespace Sys2Proof.Machine

/-! #### How a run with frames to deliver can end -/

/-- The run from `s`, with the session open and the frames `fs` to deliver, ends in `t`: the session is closed once no
frame is left, and the first frame whose cycle fails ends the run in Error. What the buffer holds has no part in it. -/
inductive EndsIn : List Frame → State → State → Prop
  | closes {s : State} (hs : s.sess = .opened) : EndsIn [] s (setRun .done (sessionRelease s))
  | fails {f : Frame} {fs : List Frame} {s : State} (hrun : s.runState ≠ .error) (hs : s.sess = .opened)
      (he : (frameCycle f s).runState = .error) : EndsIn (f :: fs) s (frameCycle f s)
  | delivers {f : Frame} {fs : List Frame} {s t : State} (hrun : s.runState ≠ .error) (hs : s.sess = .opened)
      (hcycle : frameCycle f s = delivered f s) (h : EndsIn fs (delivered f s) t) : EndsIn (f :: fs) s t
  | alike {fs : List Frame} {s s' t : State} (h : EndsIn fs s' t) (hs : SameOutside s s')
      (hw : s'.obs.nwrites = s.obs.nwrites) : EndsIn fs s t

/-- EOS delivers what is in the buffer and ends the run. -/
theorem endStream_endsIn {s : State} (hs : InFrameRun s) : EndsIn (streamFrames (buffered s)) s (endStream s) := by
  obtain ⟨-, hf, hsess, hcnt⟩ := hs
  rw [endStream_frame hf]
  by_cases h0 : s.fcnt = 0
  · rw [buffered_of_empty h0, streamFrames_nil, fbFlush, if_pos (by simpa using h0), afterDraining_of_no_error (by simp)]
    exact (EndsIn.closes (s := setRun .draining s) hsess).alike ⟨⟨rfl, rfl, rfl⟩, rfl, rfl, rfl⟩ rfl
  · rw [buffered, streamFrames_take s.fbuf (fun h => h0 (BitVec.eq_of_toNat_eq h)) (by omega),
      fbFlush_partial (s := setRun .draining s) h0]
    refine EndsIn.alike (s' := withFrame (padFrom s.fcnt.toNat s.fbuf) (setRun .draining s)) ?_
      ⟨⟨rfl, rfl, rfl⟩, rfl, rfl, rfl⟩ rfl
    rcases frameCycle_error_or_delivered (padFrom s.fcnt.toNat s.fbuf)
      (s := withFrame (padFrom s.fcnt.toNat s.fbuf) (setRun .draining s)) hsess with he | ⟨-, hcycle⟩
    · rw [setRun_fcnt, setRun_fbuf, afterDraining_of_error he]
      exact .fails (by simp [withFrame]) hsess he
    · rw [setRun_fcnt, setRun_fbuf, hcycle, afterDraining_of_no_error (by simp [delivered, withFrame])]
      exact .delivers (by simp [withFrame]) hsess hcycle (.closes (by simpa [delivered, withFrame]))

/-- A SAMPLE in a FRAME run is buffered, or starts the cycle of the frame it completes. -/
theorem takeSample_stores_or_completes {s : State} (hs : InFrameRun s) (x : Sample) :
    (takeSample x s = fbStore x (countSample s) ∧ InFrameRun (takeSample x s) ∧
        buffered (takeSample x s) = buffered s ++ [x]) ∨
      ∃ f : Frame, f.toList = buffered s ++ [x] ∧ takeSample x s = frameCycle f (withFrame f (countSample s)) := by
  obtain ⟨hrun, hf, hsess, hcnt⟩ := hs
  rw [takeSample_frame hf]
  by_cases hfull : s.fcnt = 79
  · right
    exact ⟨completedFrame s x, completedFrame_toList hfull x, fbPush_completes (s := countSample s) hfull x⟩
  · left
    rw [fbPush_stores_of_ne (s := countSample s) hfull]
    refine ⟨rfl, ⟨hrun, hf, hsess, ?_⟩, buffered_fbStore (s := countSample s) hcnt x⟩
    rw [countInRange, fbStore_fcnt, countSample_fcnt]
    bv_omega

/-- A SAMPLE ends the run, or leaves a FRAME run whose end is an end of the run before the sample. -/
theorem takeSample_endsIn {s : State} (hs : InFrameRun s) (x : Sample) :
    ((takeSample x s).runState = .error ∧
        ∀ xs : List Sample, EndsIn (streamFrames (buffered s ++ x :: xs)) s (takeSample x s)) ∨
      (InFrameRun (takeSample x s) ∧ ∀ (xs : List Sample) (t : State),
        EndsIn (streamFrames (buffered (takeSample x s) ++ xs)) (takeSample x s) t →
          EndsIn (streamFrames (buffered s ++ x :: xs)) s t) := by
  rcases takeSample_stores_or_completes hs x with ⟨htake, hin, hbuf⟩ | ⟨f, hframe, htake⟩
  · refine .inr ⟨hin, fun xs t h => ?_⟩
    rw [hbuf, ← List.append_cons, htake] at h
    exact h.alike ⟨⟨rfl, rfl, rfl⟩, rfl, rfl, rfl⟩ rfl
  · obtain ⟨hrun, hf, hsess, -⟩ := hs
    have hne : (withFrame f (countSample s)).runState ≠ .error := by simp [withFrame, hrun]
    have hframes (xs : List Sample) : streamFrames (buffered s ++ x :: xs) = f :: streamFrames xs := by
      rw [List.append_cons, ← hframe, streamFrames_append]
    simp only [hframes]
    rw [htake]
    rcases frameCycle_error_or_delivered f (s := withFrame f (countSample s)) hsess with he | ⟨-, hcycle⟩
    · exact .inl ⟨he, fun xs => (EndsIn.fails hne hsess he).alike ⟨⟨rfl, rfl, rfl⟩, rfl, rfl, rfl⟩ rfl⟩
    · have hempty : buffered (delivered f (withFrame f (countSample s))) = [] :=
        buffered_of_empty (by simp [delivered, withFrame])
      rw [hcycle, hempty]
      exact .inr ⟨delivered_inFrameRun (s := withFrame f (countSample s)) ⟨hrun, hf, hsess, Nat.zero_le _⟩ f,
        fun xs t h => (EndsIn.delivers hne hsess hcycle h).alike ⟨⟨rfl, rfl, rfl⟩, rfl, rfl, rfl⟩ rfl⟩

/-- The samples and EOS of a FRAME run deliver the frames of the samples in the buffer and those presented. -/
theorem runCommands_samples_eos_endsIn (xs : List Sample) {s : State} (hs : InFrameRun s) :
    ∃ t, runCommands (xs.map .sample ++ [.eos]) s = .next (presenting [] t) ∧
      EndsIn (streamFrames (buffered s ++ xs)) s t := by
  induction xs generalizing s with
  | nil =>
    have hs' : InFrameRun (presenting [] s) := ⟨hs.run, hs.code, hs.sess, hs.count⟩
    rw [List.map_nil, List.nil_append, List.append_nil,
      runCommands_cons [] (by simp [hs.run]) rfl (by simp [legal, hs.run])]
    exact ⟨_, runCommands_nil _, (endStream_endsIn hs').alike ⟨⟨rfl, rfl, rfl⟩, rfl, rfl, rfl⟩ rfl⟩
  | cons x xs ih =>
    have hs' : InFrameRun (presenting (xs.map .sample ++ [.eos]) s) := ⟨hs.run, hs.code, hs.sess, hs.count⟩
    rw [List.map_cons, List.cons_append, runCommands_cons _ (by simp [hs.run]) rfl (by simp [legal, hs.run])]
    rcases takeSample_endsIn hs' x with ⟨he, hends⟩ | ⟨hnext, hends⟩
    · exact ⟨_, runCommands_of_error _ he, (hends xs).alike ⟨⟨rfl, rfl, rfl⟩, rfl, rfl, rfl⟩ rfl⟩
    · obtain ⟨t, hrun, h⟩ := ih hnext
      exact ⟨t, hrun, (hends xs t h).alike ⟨⟨rfl, rfl, rfl⟩, rfl, rfl, rfl⟩ rfl⟩

/-! #### What the end is -/

/-- The cycle of a frame for which a unit of legal length and an accepted write are listed delivers it. -/
theorem frameCycle_of_listed_ok {f : Frame} {s : State} {u : List Byte} {us : List (List Byte)} {as : List Answer}
    (hlegal : 1 ≤ u.length ∧ u.length ≤ 10) (hunits : u :: us <+: s.encIn) (hanswers : .ok :: as <+: s.sinkIn) :
    frameCycle f s = delivered f s ∧ unitAnswer s f = u := by
  obtain ⟨hu, -⟩ := unitAnswer_of_listed hunits f
  obtain ⟨hmin, hmax⟩ := hlegal
  obtain ⟨hok, -⟩ := sinkAnswer_of_listed (s := afterUnit s) (by simpa using hanswers) (unitAnswer s f)
  exact ⟨frameCycle_written (hu ▸ hmin) (hu ▸ hmax) hok, hu⟩

/-- The cycle of a frame for which a unit of legal length and a refused write are listed fails with the cause listed. -/
theorem frameCycle_of_listed_refusal {f : Frame} {s : State} {u : List Byte} {c : Cause} (hs : s.sess = .opened)
    (hlegal : 1 ≤ u.length ∧ u.length ≤ 10) (hunits : [u] <+: s.encIn) (hanswers : [.fail c] <+: s.sinkIn) :
    frameCycle f s = { afterSink (afterUnit s) with
      err := .sinkWrite, errinfo := c, runState := .error, sess := .closed,
      obs := { s.obs with encLog := s.obs.encLog ++ [.encode f, .close], nframes := s.obs.nframes + 1,
                          nwrites := s.obs.nwrites + 1 } } := by
  obtain ⟨hu, -⟩ := unitAnswer_of_listed hunits f
  obtain ⟨hmin, hmax⟩ := hlegal
  obtain ⟨hfail, -⟩ := sinkAnswer_of_listed (s := afterUnit s) (by simpa using hanswers) (unitAnswer s f)
  exact frameCycle_refused (hu ▸ hmin) (hu ▸ hmax) hfail hs

/-- What is listed after the first entries is listed once the frame is delivered. -/
theorem delivered_listed {f : Frame} {s : State} {u : List Byte} {us : List (List Byte)} {a : Answer} {as : List Answer}
    (hunits : u :: us <+: s.encIn) (hanswers : a :: as <+: s.sinkIn) :
    us <+: (delivered f s).encIn ∧ as <+: (delivered f s).sinkIn := by
  obtain ⟨-, hus⟩ := unitAnswer_of_listed hunits f
  obtain ⟨-, has⟩ := sinkAnswer_of_listed hanswers []
  exact ⟨by simpa [delivered] using hus, by simpa [delivered] using has⟩

theorem delivered_runState (f : Frame) (s : State) : (delivered f s).runState = s.runState := by
  simp [delivered]

/-- With a unit of legal length and an accepted write listed for each frame, the run ends Done with those units written. -/
theorem EndsIn.completes {fs : List Frame} {s t : State} (h : EndsIn fs s t) {us : List (List Byte)}
    (hlen : us.length = fs.length) (hlegal : ∀ u ∈ us, 1 ≤ u.length ∧ u.length ≤ 10) (hunits : us <+: s.encIn)
    (hoks : List.replicate fs.length .ok <+: s.sinkIn) :
    t.runState = .done ∧ t.obs.out = s.obs.out ++ us.flatten ∧
      t.obs.encLog = s.obs.encLog ++ fs.map .encode ++ [.close] := by
  induction h generalizing us with
  | closes hs =>
    obtain rfl := List.eq_nil_of_length_eq_zero hlen
    simp [hs]
  | fails hrun hs he =>
    obtain ⟨u, us, rfl⟩ := List.exists_cons_of_length_eq_add_one hlen
    obtain ⟨hu, -⟩ := List.forall_mem_cons.1 hlegal
    obtain ⟨hcycle, -⟩ := frameCycle_of_listed_ok hu hunits hoks
    rw [hcycle, delivered_runState] at he
    exact absurd he hrun
  | @delivers f fs s t hrun hs hcycle h ih =>
    obtain ⟨u, us, rfl⟩ := List.exists_cons_of_length_eq_add_one hlen
    obtain ⟨hu, hus⟩ := List.forall_mem_cons.1 hlegal
    obtain ⟨-, hunit⟩ := frameCycle_of_listed_ok (f := f) hu hunits hoks
    obtain ⟨hunits, hoks⟩ := delivered_listed (f := f) hunits hoks
    obtain ⟨hdone, hout, hlog⟩ := ih (Nat.succ.inj hlen) hus hunits hoks
    exact ⟨hdone, by simp [hout, delivered, hunit], by simp [hlog, delivered]⟩
  | alike h hs hw ih =>
    obtain ⟨⟨henc, hsink, -⟩, -, hlog, hout⟩ := hs
    rw [← hlog, ← hout]
    exact ih hlen hlegal (henc ▸ hunits) (hsink ▸ hoks)

/-- With a unit of legal length and an accepted write listed for each of the frames `fs`, and a unit and a refused write for
the frame after them, the run ends in Error with the cause of the refusal, and neither encodes nor writes after it. -/
theorem EndsIn.refused {fs gs : List Frame} {f : Frame} {s t : State} (h : EndsIn (fs ++ f :: gs) s t)
    {us : List (List Byte)} {u : List Byte} {c : Cause} (hlen : us.length = fs.length)
    (hlegal : ∀ v ∈ us ++ [u], 1 ≤ v.length ∧ v.length ≤ 10) (hunits : us ++ [u] <+: s.encIn)
    (hanswers : List.replicate fs.length .ok ++ [.fail c] <+: s.sinkIn) :
    (t.runState = .error ∧ t.err = .sinkWrite ∧ t.errinfo = c) ∧ t.obs.out = s.obs.out ++ us.flatten ∧
      t.obs.nwrites = s.obs.nwrites + (fs.length + 1) ∧
      t.obs.encLog = s.obs.encLog ++ (fs ++ [f]).map .encode ++ [.close] := by
  generalize hall : fs ++ f :: gs = all at h
  induction h generalizing fs us with
  | closes hs => simp at hall
  | @fails f' fs' s hrun hs he =>
    cases fs with
    | nil =>
      obtain ⟨rfl, rfl⟩ := List.cons.inj hall
      obtain rfl := List.eq_nil_of_length_eq_zero hlen
      rw [frameCycle_of_listed_refusal hs (hlegal u (by simp)) hunits hanswers]
      simp
    | cons g fs =>
      obtain ⟨v, us, rfl⟩ := List.exists_cons_of_length_eq_add_one hlen
      obtain ⟨hv, -⟩ := List.forall_mem_cons.1 hlegal
      obtain ⟨hcycle, -⟩ := frameCycle_of_listed_ok hv hunits hanswers
      rw [hcycle, delivered_runState] at he
      exact absurd he hrun
  | @delivers f' fs' s t hrun hs hcycle h ih =>
    cases fs with
    | nil =>
      obtain ⟨rfl, -⟩ := List.cons.inj hall
      obtain rfl := List.eq_nil_of_length_eq_zero hlen
      have he : (frameCycle f s).runState = .error := by
        rw [frameCycle_of_listed_refusal hs (hlegal u (by simp)) hunits hanswers]
      rw [hcycle, delivered_runState] at he
      exact absurd he hrun
    | cons g fs =>
      obtain ⟨rfl, rfl⟩ := List.cons.inj hall
      obtain ⟨v, us, rfl⟩ := List.exists_cons_of_length_eq_add_one hlen
      obtain ⟨hv, hus⟩ := List.forall_mem_cons.1 hlegal
      obtain ⟨-, hunit⟩ := frameCycle_of_listed_ok (f := g) hv hunits hanswers
      obtain ⟨hunits, hanswers⟩ := delivered_listed (f := g) hunits hanswers
      obtain ⟨herr, hout, hwrites, hlog⟩ := ih (Nat.succ.inj hlen) hus hunits hanswers rfl
      refine ⟨herr, by simp [hout, delivered, hunit], ?_, by simp [hlog, delivered]⟩
      simp [hwrites, delivered]
      omega
  | alike h hs hw ih =>
    obtain ⟨⟨henc, hsink, -⟩, -, hlog, hout⟩ := hs
    rw [← hlog, ← hout, ← hw]
    exact ih hlen hlegal (henc ▸ hunits) (hsink ▸ hanswers) hall

/-! #### From reset on -/

/-- A FRAME run from reset whose open is answered ok delivers the frames of its stream. -/
theorem runCommands_frame_stream_endsIn (xs : List Sample) {s : State} (hs : Fresh s) (hopen : openAnswer s = .ok) :
    ∃ r t, runCommands (streamCommands .frame xs) s = .next (presenting [] t) ∧ EndsIn (streamFrames xs) r t ∧
      r.encIn = s.encIn ∧ r.sinkIn = s.sinkIn ∧ r.obs = { RunRecord.empty with encLog := [.open_] } := by
  obtain ⟨-, hidle, hcnt, -, -, -, hobs, -⟩ := hs
  rw [streamCommands, runCommands_cfg_start .frame _ hidle]
  rcases beginRun_inFrameRun (s := selectFormat .frame (presenting (xs.map .sample ++ [.eos]) s)) hidle rfl hcnt with
    he | ⟨hin, hempty, hrecord, henc, hsink, -⟩
  · rw [beginRun_opened (s := selectFormat .frame (presenting _ s)) (by simp [presenting, hidle]) rfl hopen] at he
    cases he
  · obtain ⟨t, hrun, hends⟩ := runCommands_samples_eos_endsIn xs hin
    rw [hempty, List.nil_append] at hends
    refine ⟨_, t, hrun, hends, henc, hsink, ?_⟩
    rw [hrecord, selectFormat_obs, presenting, hobs]
    rfl

theorem openAnswer_of_head {s : State} (h : s.openIn.head? = some .ok) : openAnswer s = .ok := by
  obtain ⟨rest, h⟩ := List.head?_eq_some_iff.1 h
  exact openAnswer_listed h

/-- A FRAME run with every call listed as answered ok ends Done with the listed units written. -/
theorem runCommands_frame_stream_completes (xs : List Sample) (us : List (List Byte)) {s : State} (hs : Fresh s)
    (hopen : openAnswer s = .ok) (hlen : us.length = (streamFrames xs).length)
    (hlegal : ∀ u ∈ us, 1 ≤ u.length ∧ u.length ≤ 10) (hunits : us <+: s.encIn)
    (hoks : List.replicate us.length .ok <+: s.sinkIn) :
    ∃ t, runCommands (streamCommands .frame xs) s = .next t ∧ t.runState = .done ∧ t.obs.out = us.flatten ∧
      t.obs.encLog = sessionLog (streamFrames xs) true := by
  obtain ⟨r, t, hrun, hends, henc, hsink, hobs⟩ := runCommands_frame_stream_endsIn xs hs hopen
  obtain ⟨hdone, hout, hlog⟩ := hends.completes hlen hlegal (henc ▸ hunits) (hsink ▸ hlen ▸ hoks)
  rw [hobs] at hout hlog
  exact ⟨_, hrun, hdone, hout, hlog⟩

/-- A FRAME run whose first refused write, as listed, is the one after those of the units `us`: these units are written, and
the frame of the refused one is the last to be encoded. -/
theorem runCommands_frame_stream_refused (xs : List Sample) {us : List (List Byte)} {u : List Byte} {c : Cause} {s : State}
    (hs : Fresh s) (hopen : openAnswer s = .ok) (hn : us.length < (streamFrames xs).length)
    (hlegal : ∀ v ∈ us ++ [u], 1 ≤ v.length ∧ v.length ≤ 10) (hunits : us ++ [u] <+: s.encIn)
    (hanswers : List.replicate us.length .ok ++ [.fail c] <+: s.sinkIn) :
    ∃ t, runCommands (streamCommands .frame xs) s = .next t ∧ t.obs.out = us.flatten ∧ t.runState = .error ∧
      t.err = .sinkWrite ∧ t.errinfo = c ∧ t.obs.nwrites = us.length + 1 ∧
      t.obs.encLog = sessionLog ((streamFrames xs).take (us.length + 1)) true := by
  obtain ⟨r, t, hrun, hends, henc, hsink, hobs⟩ := runCommands_frame_stream_endsIn xs hs hopen
  have hlen : ((streamFrames xs).take us.length).length = us.length := List.length_take_of_le hn.le
  rw [← List.take_append_drop us.length (streamFrames xs), List.drop_eq_getElem_cons hn] at hends
  obtain ⟨⟨he, herr, hinfo⟩, hout, hwrites, hlog⟩ := hends.refused hlen.symm hlegal (henc ▸ hunits)
    (by rwa [hsink, hlen])
  rw [hobs] at hout hwrites hlog
  rw [hlen] at hwrites
  rw [← List.take_succ_eq_append_getElem hn] at hlog
  exact ⟨_, hrun, hout, he, herr, hinfo, hwrites.trans (Nat.zero_add _), hlog⟩

theorem streamFrames_length_eq_frameCount (xs : List Sample) : (streamFrames xs).length = frameCount xs.length :=
  streamFrames_length xs

/-- Settles O51: every frame of the stream is delivered in the unit listed for it. -/
theorem frameStreamCompletes : Obligations.FrameStreamCompletes := by
  intro s xs us hs hopen hlen hunits hlegal hoks
  exact runCommands_frame_stream_completes xs us hs (openAnswer_of_head hopen)
    (hlen.trans (streamFrames_length_eq_frameCount xs).symm) hlegal (List.prefix_iff_eq_take.2 hunits.symm)
    (hoks ▸ List.take_prefix _ _)

/-- Settles O54: the run of no samples has no frame to deliver. -/
theorem emptyFrameRun : Obligations.EmptyFrameRun := by
  intro s hs hopen
  obtain ⟨t, hrun, hdone, hout, hlog⟩ := runCommands_frame_stream_completes [] [] hs hopen rfl (by simp)
    List.nil_prefix List.nil_prefix
  exact ⟨t, hrun, hdone, hlog, hout⟩

/-- Settles O53: the writes before the refused one are accepted, and error entry ends the run and closes the session. -/
theorem sinkFailurePropagates : Obligations.SinkFailurePropagates := by
  constructor
  · intro s f xs n c hs hf hn hlist
    have hlen : (xs.take n).length = n := by simp; omega
    have hsplit : xs = xs.take n ++ xs[n] :: xs.drop (n + 1) := by
      rw [← List.drop_eq_getElem_cons hn, List.take_append_drop]
    have hanswers : List.replicate (xs.take n).length .ok ++ [.fail c] <+: s.sinkIn := by
      rw [hlen, ← hlist]
      exact List.take_prefix _ _
    obtain ⟨t, hrun, he, herr, hinfo, hobs⟩ :=
      runCommands_sample_stream_refused hf (xs.take n) (xs.drop (n + 1)) xs[n] hs hanswers
    rw [← hsplit] at hrun
    refine ⟨t, hrun, ?_, he, herr, hinfo, ?_, ?_⟩ <;> simp [hobs, hlen, RunRecord.empty]
  · intro s xs us n c hs hopen hn hlen hunits hlegal hlist
    obtain ⟨vs, u, rfl⟩ := (List.eq_nil_or_concat' us).resolve_left (List.ne_nil_of_length_eq_add_one hlen)
    obtain rfl : vs.length = n := by simpa using hlen
    rw [List.take_left]
    exact runCommands_frame_stream_refused xs hs (openAnswer_of_head hopen)
      (hn.trans_eq (streamFrames_length_eq_frameCount xs).symm) hlegal (hunits ▸ List.take_prefix _ _)
      (hlist ▸ List.take_prefix _ _)

end Sys2Proof.Machine

/-! ### IllegalCommand (60_exceptions.md R220 to R222) -/

namespace Sys2Proof

/-- A block that has every command decodes each word to the one command it encodes. -/
theorem encode_injective : Function.Injective encode := by
  intro i j h
  have hwf (k : Instr) : wellFormed true k = true := by cases k <;> rfl
  exact Except.ok.inj ((decode_encode (hwf i)).symm.trans (h ▸ decode_encode (hwf j)))

@[simp] theorem encode_inj {i j : Instr} : encode i = encode j ↔ i = j := encode_injective.eq_iff

end Sys2Proof

namespace Sys2Proof.Machine

/-- Settles O11, by what the step does with a word: Error consumes it, an Invalid one faults, and a command faults exactly where
it is not legal, with the word it was decoded from. -/
theorem illegalCommandExactly : Obligations.IllegalCommandExactly := by
  intro s w v rest hword
  by_cases he : s.runState = .error
  · simp [step_of_word_in_error hword he, he]
  cases hdec : decode s.hasCancel w with
  | error e => simp [step_of_invalid_word hword he hdec, he, eq_comm (a := v)]
  | ok i =>
    obtain ⟨rfl, -⟩ := encode_of_decode hdec
    rw [step_of_command hword he hdec]
    cases hl : legal s i with
    | true =>
      rw [exec_of_legal (s := { s with hostIn := rest }) he ((legal_setHostIn s rest i).trans hl)]
      simp [hl]
    | false =>
      rw [exec_of_not_legal (s := { s with hostIn := rest }) he ((legal_setHostIn s rest i).trans hl)]
      simp [he, hl, eq_comm (a := v)]

/-! #### The commands that are not legal, by run state (R173, R221) -/

theorem not_legal_of_idle_iff {s : State} (h : s.runState = .idle) (i : Instr) : legal s i = false ↔
    (∃ x, i = .sample x) ∨ i = .eos ∨ (∃ c, i = .srcerr c) ∨ i = .cancel ∨ (i = .start ∧ s.fmtCfgd = false) := by
  cases i <;> simp [legal, h]

theorem not_legal_of_streaming_iff {s : State} (h : s.runState = .streaming) {i : Instr}
    (hwf : wellFormed s.hasCancel i = true) : legal s i = false ↔ (∃ f, i = .cfg f) ∨ i = .start := by
  cases i with
  | cancel => simp [legal, h, show s.hasCancel = true from hwf]
  | _ => simp [legal, h]

/-- Settles O13, by the kind of the word and, for a command, the run state: the words listed are those of the commands that are
not legal there. -/
theorem illegalWordsByState : Obligations.IllegalWordsByState := by
  intro s w rest hword hdrain
  rw [illegalCommandExactly s w w rest hword]
  cases hdec : decode s.hasCancel w with
  | error e =>
    cases hrun : s.runState with
    | draining => exact absurd hrun hdrain
    | _ => simp
  | ok i =>
    obtain ⟨rfl, hwf⟩ := encode_of_decode hdec
    cases hrun : s.runState with
    | idle => simp [not_legal_of_idle_iff hrun]
    | streaming => simp [not_legal_of_streaming_iff hrun hwf]
    | draining => exact absurd hrun hdrain
    | done => simp [legal_of_done hrun]
    | error => simp

end Sys2Proof.Machine

/-! ### Error entry and what follows it (60_exceptions.md R214, R215, R223) -/

namespace Sys2Proof.Machine

/-- Settles O21: error entry is the three register writes, and the release one Close where the session is open. -/
theorem errorEntryWrites : Obligations.ErrorEntryWrites :=
  ⟨fun k c _ hopen => enterError_opened hopen k c, fun k c _ hclosed => enterError_not_opened hclosed k c,
    sessionRelease_idem⟩

/-- Settles O15, by induction on the words: Error consumes the first and is left as it was. -/
theorem oneErrorPerRun : Obligations.OneErrorPerRun := by
  intro s ws he hwords
  induction ws generalizing s with
  | nil =>
    have hnone : s.hostIn = [] := hwords
    rw [← hnone]
    rfl
  | cons w ws ih =>
    have hstep : Sys2Proof.core.step s = .next { s with hostIn := ws.map .word } := step_of_word_in_error hwords he
    exact (run_succ_of_step hstep).trans (ih _ he rfl)

/-! #### EncoderInitError (R214) -/

/-- Only CFG leaves a run in Idle. -/
theorem cfg_of_effectOf_idle {i : Instr} {s : State} (hl : legal s i = true) (h : (effectOf i s).runState = .idle) :
    ∃ f, i = .cfg f := by
  cases i <;> simp only [legal, Bool.and_eq_true, decide_eq_true_eq] at hl
  case cfg f => exact ⟨f, rfl⟩
  case start =>
    obtain ⟨hidle, -⟩ := hl
    rcases beginRun_cases (s := s) (by simp [hidle]) with ⟨_, ht⟩ | ⟨_, _, ht⟩ | ⟨_, _, _, ht⟩ <;>
      simp [effectOf, ht] at h
  case sample x =>
    rcases takeSample_moves x s with ⟨-, ht⟩ | ⟨_, -, ht, -⟩ | ⟨-, ht, -⟩
    · cases h.symm.trans (ht.trans hl)
    · cases h.symm.trans ht
    · cases h.symm.trans ht
  case eos =>
    rcases endStream_moves s with ht | ⟨-, ht, -⟩ <;> cases h.symm.trans ht
  case srcerr c => cases h.symm.trans (enterError_runState .sourceRead c s)
  case cancel => cases h.symm.trans (enterError_runState .cancelled 0 s)

/-- Only START in FRAME raises EncoderInitError. -/
theorem start_of_effectOf_encoderInit {i : Instr} {s : State} (hrun : s.runState ≠ .error)
    (h : (effectOf i s).err = .encoderInit) (hnew : s.err ≠ .encoderInit) : i = .start ∧ s.fmtCode = .frame := by
  by_cases he : (effectOf i s).runState = .error
  case neg =>
    obtain ⟨herr, -⟩ := effectOf_sameError hrun he
    exact absurd (herr.symm.trans h) hnew
  cases i with
  | cfg f => exact absurd h hnew
  | start =>
    rcases beginRun_cases hrun with ⟨_, ht⟩ | ⟨hf, -⟩ | ⟨hf, -⟩
    · exact absurd (by simpa [effectOf, ht] using h) hnew
    · exact ⟨rfl, hf⟩
    · exact ⟨rfl, hf⟩
  | sample x =>
    rcases takeSample_moves x s with ⟨-, ht⟩ | ⟨_, -, -, ht⟩ | ⟨-, -, ht⟩
    · exact absurd (ht.symm.trans he) hrun
    · cases ht.symm.trans h
    · cases ht.symm.trans h
  | eos =>
    rcases endStream_moves s with hdone | ⟨-, -, ht | ht⟩
    · cases hdone.symm.trans he
    · cases ht.symm.trans h
    · cases ht.symm.trans h
  | srcerr c => cases (enterError_err .sourceRead c s).symm.trans h
  | cancel => cases (enterError_err .cancelled 0 s).symm.trans h

/-- Settles O37, by what a step can do. Only CFG leaves a run in Idle and only START raises EncoderInitError; both are legal in
Idle only, where nothing has been written, and write nothing. -/
theorem initErrorBeforeAnyWrite : Obligations.InitErrorBeforeAnyWrite := by
  intro s t _ hidle h
  rcases step_next h with ⟨_, rfl⟩ | ⟨rest, _, rfl⟩ | ⟨w, rest, _, _, rfl⟩ | ⟨w, rest, i, hword, hrun, hdec, hexec⟩
  · exact ⟨hidle, fun herr hnew => absurd herr hnew⟩
  · exact ⟨fun _ => ⟨rfl, rfl⟩, nofun⟩
  · exact ⟨hidle, fun herr hnew => absurd herr hnew⟩
  · rcases exec_next hexec with ⟨he, _⟩ | ⟨_, hl, rfl⟩
    · exact absurd he hrun
    · refine ⟨fun hi => ?_, fun herr hnew => ?_⟩
      · obtain ⟨f, rfl⟩ := cfg_of_effectOf_idle hl hi
        exact hidle (of_decide_eq_true hl)
      · obtain ⟨rfl, hf⟩ := start_of_effectOf_encoderInit (s := { s with hostIn := rest }) hrun herr hnew
        obtain ⟨rfl, -⟩ := encode_of_decode hdec
        obtain ⟨hstart, -⟩ := Bool.and_eq_true_iff.1 hl
        have hrunIdle : s.runState = .idle := of_decide_eq_true hstart
        obtain ⟨hout, hwrites⟩ := hidle hrunIdle
        obtain ⟨hout', hwrites', -⟩ := beginRun_nothingSent (s := { s with hostIn := rest }) hrun
        exact ⟨⟨rest, hword⟩, hrunIdle, hf, hout'.trans hout, hwrites'.trans hwrites⟩

end Sys2Proof.Machine

/-! ### The host presents nothing, or asserts reset (70_reset_and_hazards.md R240 to R242) -/

namespace Sys2Proof.Machine

/-- Settles O10, by the step's equation where the host does nothing. -/
theorem stepWaitsForAWord : Obligations.StepWaitsForAWord := fun _ => step_of_no_event

/-- The session release adds at most its Close to the record of the run. -/
theorem sessionRelease_obs (s : State) : (sessionRelease s).obs =
    { s.obs with encLog := if s.sess = .opened then s.obs.encLog ++ [.close] else s.obs.encLog } := by
  by_cases h : s.sess = .opened
  · rw [sessionRelease_opened h, if_pos h]
    rfl
  · rw [sessionRelease_not_opened h, if_neg h]

/-- Settles O19, by the fields of the reset input's state: it sets the registers, ends the run's record as the session release
left it, and keeps the parameter and the inputs, which the release does not touch. -/
theorem resetInputEndsRun : Obligations.ResetInputEndsRun := by
  intro s rest hreset
  have hpast := resetInput_past { s with hostIn := rest }
  rw [sessionRelease_obs] at hpast
  exact ⟨_, step_of_reset hreset, rfl, rfl, rfl, rfl, rfl, rfl, rfl, rfl, hpast, sessionRelease_hasCancel _,
    sessionRelease_hostIn _, sessionRelease_sinkIn _, sessionRelease_openIn _, sessionRelease_encIn _⟩

end Sys2Proof.Machine
